-- ==== Sys2Proof/Word.lean ====
section
/-! DEFINITION. The data types of the block: bytes and packets (spec/10_state.md R21, spec/20_memory.md R62).
No field is wider than one byte, so no byte order occurs anywhere. -/

namespace Sys2Proof

/-- A byte, an unsigned integer 0..255 (spec/00_scope.md section 5.1). -/
abbrev Byte := BitVec 8

/-- A packet is its image, the byte string that travels as a data frame's `data` (R21). The bound
`1 ≤ length ≤ MTU` is checked where a packet enters the block, see `IsPacket`. -/
abbrev Packet := List Byte

end Sys2Proof
end

