-- ==== Sys2Proof/Config.lean ====
section
/-! DEFINITION. The configuration of one instance of the block (spec/00_scope.md R7, R8; spec/10_state.md R48),
the constants the spec fixes, and the one free value. -/

namespace Sys2Proof

/-- The OPEN parameters of R7: read-only straps, set before reset is released and never written afterwards. -/
structure Config where
  /-- `MTU`: largest `length` of a data frame and size of the receive buffer. -/
  mtu : Nat
  /-- `CAP_TIQ`. -/
  capTiq : Nat
  /-- `CAP_TEQ`. -/
  capTeq : Nat
  /-- `CAP_RIQ`. -/
  capRiq : Nat
  /-- `CAP_ROQ`. -/
  capRoq : Nat
  /-- `CAP_FQ`: one value for all four per-function queues. -/
  capFq : Nat
  /-- `FN_TEST`. -/
  fnTest : Byte
  /-- `FN_WIFI_CTRL`. -/
  fnWifi : Byte
  /-- `T_INIT`, in TICK events. -/
  tInit : Nat
  /-- `T_RETRY`, in TICK events. -/
  tRetry : Nat
deriving DecidableEq, Repr

/-- The constraints of R8. A parameter set that breaks one is refused: the spec gives such a block no behaviour. -/
abbrev Config.Valid (c : Config) : Prop :=
  (2 ≤ c.mtu ∧ c.mtu ≤ 255) ∧
  (1 ≤ c.capTiq ∧ 1 ≤ c.capTeq ∧ 1 ≤ c.capRiq ∧ 1 ≤ c.capRoq ∧ 1 ≤ c.capFq) ∧
  c.fnTest ≠ c.fnWifi ∧ 1 ≤ c.tInit ∧ 1 ≤ c.tRetry

/-- `START`, the start-marker byte (R7). -/
def startMarker : Byte := 0xFF#8

/-- `OFF_DST`: index of the `route.destination` byte in the packet image (R7). -/
def offDst : Nat := 0

/-- `OFF_FN`: index of the `route.function` byte in the packet image (R7). -/
def offFn : Nat := 1

/-- `ROUTE_HDR_LEN`: number of leading image bytes that are route fields (R7). -/
def routeHdrLen : Nat := 2

/-- DESIGN CHOICE (log 1), unsafe: the parameters of `State.reset`. They are the example configuration EX of
spec/95_test_vectors.md, because the spec gives no values; no statement rests on them. -/
def Config.ex : Config where
  mtu := 8
  capTiq := 2
  capTeq := 2
  capRiq := 2
  capRoq := 2
  capFq := 2
  fnTest := 0x01#8
  fnWifi := 0x02#8
  tInit := 2
  tRetry := 3

/-- FREE VALUE (log 12): what the `n`-th log record holds beyond the dropped packet. spec/43_packet_router.md R194:
"its further contents and format are not in the source". Nothing constrains it. -/
opaque Config.logText : Nat → List Byte

end Sys2Proof
end

