-- ==== Sys2Proof/Syntax.lean ====
section
/-! DEFINITION. The block's operations, byte classes and engine steps as one inductive type, one constructor per row
of spec/opcode_table.json, named as spec/30_encoding.md R103 and R104 name them; and the small types they use. -/

namespace Sys2Proof

/-- The three signal bits (spec/10_state.md R31). -/
inductive SigBit where
  /-- `sig.PGS`, peer-granted-send (R32). -/
  | pgs
  /-- `sig.OWE`, local-owes-grant (R33). -/
  | owe
  /-- `sig.HOB`, local-has-outbound (R34). -/
  | hob
deriving DecidableEq, Repr

/-- A set of signal bits: the wait set of SIG_WAIT and the report it gives (spec/41_flow_control.md R142). -/
structure SigSet where
  /-- Is `PGS` in the set? -/
  pgs : Bool
  /-- Is `OWE` in the set? -/
  owe : Bool
  /-- Is `HOB` in the set? -/
  hob : Bool
deriving DecidableEq, Repr

/-- The RX engine's phases (spec/10_state.md R40). -/
inductive RxPhase where
  /-- `RX_HUNT` -/
  | hunt
  /-- `RX_LEN` -/
  | len
  /-- `RX_DATA` -/
  | data
  /-- `RX_DELIVER` -/
  | deliver
deriving DecidableEq, Repr

/-- The TX engine's phases (spec/10_state.md R35). -/
inductive TxPhase where
  /-- `TX_DELAY` -/
  | delay
  /-- `TX_SYNC_EMIT` -/
  | syncEmit
  /-- `TX_SYNC_WAIT` -/
  | syncWait
  /-- `TX_CHECK` -/
  | check
  /-- `TX_IDLE_WAIT` -/
  | idleWait
  /-- `TX_IDLE_EMIT` -/
  | idleEmit
  /-- `TX_HOLD_WAIT` -/
  | holdWait
  /-- `TX_GRANT_EMIT` -/
  | grantEmit
  /-- `TX_DATA_EMIT` -/
  | dataEmit
deriving DecidableEq, Repr

/-- A transport frame (spec/10_state.md R22). -/
inductive Frame where
  /-- The sentinel frame: `length = 0`, no data. -/
  | sentinel
  /-- A data frame: `length = p.length`, `data = p`. -/
  | data (p : Packet)
deriving DecidableEq, Repr

/-- The two silent conditions of the decoder (spec/60_exceptions.md R225 to R227). -/
inductive Silent where
  /-- `FRAMING_ERROR(b)`, R226. -/
  | framingError (b : Byte)
  /-- `OVERLENGTH(b)`, R227. -/
  | overlength (b : Byte)
deriving DecidableEq, Repr

/-- Every row of spec/opcode_table.json. -/
inductive Instr where
  -- format FRAME (R90): a whole frame taken by the RX engine at a frame boundary
  /-- SENTINEL: the frame `FF 00`. -/
  | sentinel
  /-- DATA_FRAME: the frame `FF LEN data` with `data = p`, `LEN = p.length`. -/
  | dataFrame (p : Packet)
  -- format BYTE (R100): one byte, classified by the RX engine's phase
  /-- JUNK: a byte other than the start marker, in RX_HUNT. -/
  | junk (b : Byte)
  /-- START: the start marker, in RX_HUNT. -/
  | start
  /-- LEN0: length byte zero, in RX_LEN. -/
  | len0
  /-- LENOK: length byte `1 ≤ b ≤ MTU`, in RX_LEN. -/
  | lenok (b : Byte)
  /-- LENOVER: length byte `b > MTU`, in RX_LEN. -/
  | lenover (b : Byte)
  /-- DATA: any byte, in RX_DATA. -/
  | data (b : Byte)
  -- format ROUTE (R69, R101): the class of the held packet's function byte
  /-- ROUTE_TEST: the function byte is `FN_TEST`. -/
  | routeTest
  /-- ROUTE_WIFI_CTRL: the function byte is `FN_WIFI_CTRL`. -/
  | routeWifiCtrl
  /-- ROUTE_UNROUTED: any other function byte `f`, or none. -/
  | routeUnrouted (f : Option Byte)
  -- format IFACE
  /-- ENCODE_DATA, R120. -/
  | encodeData (p : Packet)
  /-- ENCODE_SENTINEL, R121. -/
  | encodeSentinel
  /-- DECODE_NEXT, R122, on the byte string `bs`. -/
  | decodeNext (bs : List Byte)
  /-- TRANSPORT_SEND, R180. -/
  | transportSend (p : Packet)
  /-- TRANSPORT_RECEIVE, R181. -/
  | transportReceive
  /-- POST_INBOUND, R190. -/
  | postInbound (p : Packet)
  /-- NEXT_OUTBOUND, R198. -/
  | nextOutbound
  -- format PORT
  /-- RECEIVE_FOR_TEST, R195. -/
  | receiveForTest
  /-- RECEIVE_FOR_WIFI_CTRL, R196. -/
  | receiveForWifiCtrl
  /-- SUBMIT_OUTBOUND, R197. -/
  | submitOutbound (p : Packet)
  -- format STEP: the signal primitives
  /-- SIG_RAISE, R141. -/
  | sigRaise (x : SigBit)
  /-- SIG_WAIT, R142, on the wait set `m`. -/
  | sigWait (m : SigSet)
  /-- SIG_POLL, R143. -/
  | sigPoll
  -- format STEP: RX delivery and the TX engine
  /-- RX_DELIVER, R161. -/
  | rxDeliver
  /-- TX_TICK, R144. -/
  | txTick
  /-- TX_DELAY_EXPIRE, R145. -/
  | txDelayExpire
  /-- TX_EMIT_BYTE, R146. -/
  | txEmitByte
  /-- TX_SYNC_EMIT_DONE, R147. -/
  | txSyncEmitDone
  /-- TX_SYNC_POLL_HIT, R148. -/
  | txSyncPollHit
  /-- TX_SYNC_POLL_MISS, R149. -/
  | txSyncPollMiss
  /-- TX_CHECK_EMPTY, R150. -/
  | txCheckEmpty
  /-- TX_CHECK_DEQ, R151. -/
  | txCheckDeq
  /-- TX_IDLE_WAKE_GRANT, R152. -/
  | txIdleWakeGrant
  /-- TX_IDLE_WAKE_OUTBOUND, R153. -/
  | txIdleWakeOutbound
  /-- TX_IDLE_EMIT_DONE, R154. -/
  | txIdleEmitDone
  /-- TX_HOLD_WAKE_GRANT, R155. -/
  | txHoldWakeGrant
  /-- TX_HOLD_WAKE_BOTH, R156. -/
  | txHoldWakeBoth
  /-- TX_HOLD_WAKE_SEND, R157. -/
  | txHoldWakeSend
  /-- TX_GRANT_EMIT_DONE_BACK, R158. -/
  | txGrantEmitDoneBack
  /-- TX_GRANT_EMIT_DONE_GO, R159. -/
  | txGrantEmitDoneGo
  /-- TX_DATA_EMIT_DONE, R160. -/
  | txDataEmitDone
  -- format STEP: the RX engine's byte steps
  /-- RX_JUNK, R123. -/
  | rxJunk
  /-- RX_START, R124. -/
  | rxStart
  /-- RX_LEN_SENTINEL, R125. -/
  | rxLenSentinel
  /-- RX_LEN_DATA, R126. -/
  | rxLenData
  /-- RX_LEN_OVER, R127. -/
  | rxLenOver
  /-- RX_DATA_BYTE, R128. -/
  | rxDataByte
  -- format STEP: the dispatcher and the bridges
  /-- RT_FETCH, R191. -/
  | rtFetch
  /-- RT_ROUTE_TEST, R192. -/
  | rtRouteTest
  /-- RT_ROUTE_WIFI, R193. -/
  | rtRouteWifi
  /-- RT_DROP, R194. -/
  | rtDrop
  /-- BU_FETCH, R216. -/
  | buFetch
  /-- BU_POST, R217. -/
  | buPost
  /-- BD_FETCH, R218. -/
  | bdFetch
  /-- BD_SEND, R219. -/
  | bdSend
deriving DecidableEq, Repr

end Sys2Proof
end

