-- ==== Sys2Proof/WellFormed.lean ====
section
/-! DEFINITION. Which instructions are well formed: the operand bounds the spec puts on packets
(spec/10_state.md R21) and on classified bytes (spec/30_encoding.md R90, R100, R101). -/

namespace Sys2Proof

/-- A byte string is a packet when `1 ≤ len(p) ≤ MTU` (R21). -/
abbrev IsPacket (c : Config) (p : Packet) : Prop := 1 ≤ p.length ∧ p.length ≤ c.mtu

/-- The function byte, or its absence, selects neither known queue (spec/20_memory.md R69). -/
abbrev Unrouted (c : Config) (f : Option Byte) : Prop := f ≠ some c.fnTest ∧ f ≠ some c.fnWifi

/-- The operands are in the range the instruction's row of the table gives them. -/
def WellFormed (c : Config) : Instr → Bool
  | .dataFrame p => decide (IsPacket c p)
  | .junk b => decide (b ≠ startMarker)
  | .lenok b => decide (1 ≤ b.toNat ∧ b.toNat ≤ c.mtu)
  | .lenover b => decide (c.mtu < b.toNat)
  | .routeUnrouted f => decide (Unrouted c f)
  | .encodeData p => decide (IsPacket c p)
  | .transportSend p => decide (IsPacket c p)
  | .postInbound p => decide (IsPacket c p)
  | .submitOutbound p => decide (IsPacket c p)
  | .sentinel | .start | .len0 | .data _ | .routeTest | .routeWifiCtrl | .encodeSentinel | .decodeNext _
  | .transportReceive | .nextOutbound | .receiveForTest | .receiveForWifiCtrl | .sigRaise _ | .sigWait _ | .sigPoll
  | .rxDeliver | .txTick | .txDelayExpire | .txEmitByte | .txSyncEmitDone | .txSyncPollHit | .txSyncPollMiss
  | .txCheckEmpty | .txCheckDeq | .txIdleWakeGrant | .txIdleWakeOutbound | .txIdleEmitDone | .txHoldWakeGrant
  | .txHoldWakeBoth | .txHoldWakeSend | .txGrantEmitDoneBack | .txGrantEmitDoneGo | .txDataEmitDone
  | .rxJunk | .rxStart | .rxLenSentinel | .rxLenData | .rxLenOver | .rxDataByte
  | .rtFetch | .rtRouteTest | .rtRouteWifi | .rtDrop | .buFetch | .buPost | .bdFetch | .bdSend => true

end Sys2Proof
end

