-- ==== Sys2Proof/Decode.lean ====
section
/-! DEFINITION. The frame codec as functions, the decoder, and after it the encoder.
Encoding: spec/40_frame_codec.md R120, R121. Decoding of a byte stream: R122. Classification of one byte:
spec/30_encoding.md R100. Classification of a function byte: spec/20_memory.md R69. -/

namespace Sys2Proof

/-! ### Encoding of frames -/

/-- ENCODE_DATA, `frame_of(p) = [0xFF, len(p)] ++ p` (R120). -/
def frameOf (p : Packet) : List Byte := startMarker :: BitVec.ofNat 8 p.length :: p

/-- ENCODE_SENTINEL, `SENT = [0xFF, 0x00]` (R121). -/
def sent : List Byte := [startMarker, 0x00#8]

/-- The bytes of a frame (R90). -/
def frameBytes : Frame → List Byte
  | .sentinel => sent
  | .data p => frameOf p

/-! ### Decoding as a function -/

/-- DECODE_NEXT (R122): the first frame of the byte string and the bytes after it, or `none` for `blocks`. -/
def decodeNext (mtu : Nat) : List Byte → Option (Frame × List Byte)
  | [] => none
  | [_] => none
  | b :: n :: rest =>
    if b ≠ startMarker then decodeNext mtu (n :: rest)
    else if n = 0x00#8 then some (.sentinel, rest)
    else if mtu < n.toNat then decodeNext mtu rest
    else if rest.length < n.toNat then none
    else some (.data (rest.take n.toNat), rest.drop n.toNat)

/-- The silent events of one DECODE_NEXT (R122 "Events"): one FRAMING_ERROR for each discarded byte that is not a start
marker, one OVERLENGTH for each discarded header, in stream order. -/
def decodeDiscards (mtu : Nat) : List Byte → List Silent
  | [] => []
  | [b] => if b ≠ startMarker then [.framingError b] else []
  | b :: n :: rest =>
    if b ≠ startMarker then .framingError b :: decodeDiscards mtu (n :: rest)
    else if n = 0x00#8 then []
    else if mtu < n.toNat then .overlength n :: decodeDiscards mtu rest
    else []

/-! ### The instruction decoder -/

/-- Why no instruction is read. None of these stops the machine: the bytes wait (spec/30_encoding.md R100, R102). -/
inductive Reject where
  /-- No byte is offered. -/
  | noByte
  /-- The RX engine is in RX_DELIVER: RXD is not ready (R100, last row). -/
  | notReady
  /-- A whole frame is asked for away from a frame boundary. -/
  | notAtBoundary
  /-- The first byte is not the start marker (R91). -/
  | notStart
  /-- The length byte is greater than `MTU` (R102). -/
  | overLength
  /-- The frame is not all there yet (R122). -/
  | incomplete
deriving DecidableEq, Repr

/-- R100, the decoder's whole opcode map: the class of the byte `b` in phase `ph`. -/
def decodeByte (ph : RxPhase) (mtu : Nat) (b : Byte) : Except Reject Instr :=
  match ph with
  | .hunt => .ok (if b = startMarker then .start else .junk b)
  | .len => .ok (if b = 0x00#8 then .len0 else if b.toNat ≤ mtu then .lenok b else .lenover b)
  | .data => .ok (.data b)
  | .deliver => .error .notReady

/-- R90: the whole frame at the front of the byte string, and the bytes after it. A frame is one only at a frame
boundary, the phase RX_HUNT. -/
def decodeFrame (ph : RxPhase) (mtu : Nat) (bs : List Byte) : Except Reject (Instr × List Byte) :=
  if ph ≠ .hunt then .error .notAtBoundary
  else match bs with
  | [] => .error .noByte
  | b :: rest =>
    if b ≠ startMarker then .error .notStart
    else match rest with
    | [] => .error .incomplete
    | n :: data =>
      if n = 0x00#8 then .ok (.sentinel, data)
      else if mtu < n.toNat then .error .overLength
      else if data.length < n.toNat then .error .incomplete
      else .ok (.dataFrame (data.take n.toNat), data.drop n.toNat)

/-- `fn_of(p) = p[OFF_FN]`, defined when the image holds both route bytes (spec/30_encoding.md R99). -/
def fnOf (p : Packet) : Option Byte := if routeHdrLen ≤ p.length then p[offFn]? else none

/-- `dst_of(p) = p[OFF_DST]` (R99). The block carries it and never examines it (spec/20_memory.md R70). -/
def dstOf (p : Packet) : Option Byte := if routeHdrLen ≤ p.length then p[offDst]? else none

/-- The payload, the image bytes after the route header (R21). The block never examines it. -/
def payloadOf (p : Packet) : List Byte := p.drop routeHdrLen

/-- R69, the function-code map: the row that a function byte, or its absence, selects. -/
def decodeRoute (c : Config) (f : Option Byte) : Instr :=
  if f = some c.fnTest then .routeTest
  else if f = some c.fnWifi then .routeWifiCtrl
  else .routeUnrouted f

/-! ### The encoder -/

/-- The bytes of an instruction that has bits; `none` for the rows whose encoding is the literal "none"
(spec/30_encoding.md R106). A ROUTE row's byte is the function byte; an absent function byte is the empty string. -/
def encode (c : Config) : Instr → Option (List Byte)
  | .sentinel => some sent
  | .dataFrame p => some (frameOf p)
  | .junk b => some [b]
  | .start => some [startMarker]
  | .len0 => some [0x00#8]
  | .lenok b => some [b]
  | .lenover b => some [b]
  | .data b => some [b]
  | .routeTest => some [c.fnTest]
  | .routeWifiCtrl => some [c.fnWifi]
  | .routeUnrouted f => some f.toList
  | .encodeData _ | .encodeSentinel | .decodeNext _ | .transportSend _ | .transportReceive | .postInbound _
  | .nextOutbound | .receiveForTest | .receiveForWifiCtrl | .submitOutbound _ | .sigRaise _ | .sigWait _ | .sigPoll
  | .rxDeliver | .txTick | .txDelayExpire | .txEmitByte | .txSyncEmitDone | .txSyncPollHit | .txSyncPollMiss
  | .txCheckEmpty | .txCheckDeq | .txIdleWakeGrant | .txIdleWakeOutbound | .txIdleEmitDone | .txHoldWakeGrant
  | .txHoldWakeBoth | .txHoldWakeSend | .txGrantEmitDoneBack | .txGrantEmitDoneGo | .txDataEmitDone
  | .rxJunk | .rxStart | .rxLenSentinel | .rxLenData | .rxLenOver | .rxDataByte
  | .rtFetch | .rtRouteTest | .rtRouteWifi | .rtDrop | .buFetch | .buPost | .bdFetch | .bdSend => none

/-- The phase in which a BYTE row is read (R100). -/
def bytePhase : Instr → Option RxPhase
  | .junk _ | .start => some .hunt
  | .len0 | .lenok _ | .lenover _ => some .len
  | .data _ => some .data
  | .sentinel | .dataFrame _ | .routeTest | .routeWifiCtrl | .routeUnrouted _
  | .encodeData _ | .encodeSentinel | .decodeNext _ | .transportSend _ | .transportReceive | .postInbound _
  | .nextOutbound | .receiveForTest | .receiveForWifiCtrl | .submitOutbound _ | .sigRaise _ | .sigWait _ | .sigPoll
  | .rxDeliver | .txTick | .txDelayExpire | .txEmitByte | .txSyncEmitDone | .txSyncPollHit | .txSyncPollMiss
  | .txCheckEmpty | .txCheckDeq | .txIdleWakeGrant | .txIdleWakeOutbound | .txIdleEmitDone | .txHoldWakeGrant
  | .txHoldWakeBoth | .txHoldWakeSend | .txGrantEmitDoneBack | .txGrantEmitDoneGo | .txDataEmitDone
  | .rxJunk | .rxStart | .rxLenSentinel | .rxLenData | .rxLenOver | .rxDataByte
  | .rtFetch | .rtRouteTest | .rtRouteWifi | .rtDrop | .buFetch | .buPost | .bdFetch | .bdSend => none

/-! ### Words of the opcode table -/

/-- The bytes of a table word, first byte sent first. DEDUCED (log 13): the table reads a row's bytes as one number with
the byte sent first in the highest place (SENTINEL `11111111 00000000` is `0xFF00`). -/
def tableBytes (nbits w : Nat) : List Byte :=
  ((List.range (nbits / 8)).map fun k => BitVec.ofNat 8 (w / 256 ^ k)).reverse

/-- DESIGN CHOICE (log 13): the phase in which a one-byte table word is read, the phase of the first row of the table
whose `match` and `mask` the byte meets: START, LEN0, then DATA, which any byte meets. -/
def tablePhase (b : Byte) : RxPhase :=
  if b = startMarker then .hunt else if b = 0x00#8 then .len else .data

/-- The bytes laid out for a table word: an instruction's bytes above `nbits` are zero, up to the longest frame. -/
def tableLine (mtu nbits w : Nat) : List Byte :=
  match tableBytes nbits w with
  | [] => []
  | [b] => [b]
  | b :: n :: bs => b :: n :: (bs ++ List.replicate mtu 0x00#8)

/-- The instruction the decoder reads from a table word: a byte class for one byte, a frame for more. `MTU` is that of
the configuration at reset. -/
def decodeTableWord (nbits w : Nat) : Option Instr :=
  match tableLine Config.ex.mtu nbits w with
  | [] => none
  | [b] => (decodeByte (tablePhase b) Config.ex.mtu b).toOption
  | b :: n :: bs => (decodeFrame .hunt Config.ex.mtu (b :: n :: bs)).toOption.map Prod.fst

end Sys2Proof
end

