-- ==== Sys2Proof/Machine/State.lean ====
section
/-! DEFINITION. The state of one instance of the block (spec/10_state.md R20, R45), the outcomes that stop a step, and
the state after reset. -/

namespace Sys2Proof.Machine

open Sys2Proof

/-- The signal group (R31): one group per transport, never shared (spec/41_flow_control.md R170). -/
structure Sig where
  /-- `sig.PGS` (R32). -/
  pgs : Bool
  /-- `sig.OWE` (R33). -/
  owe : Bool
  /-- `sig.HOB` (R34). -/
  hob : Bool
deriving DecidableEq, Repr

/-- The eight queues by name (R25 to R30). -/
inductive QueueId where
  | tiq | teq | riq | roq | fqTest | fqWifi | fqX0 | fqX1
deriving DecidableEq, Repr

/-- The five internal agents (spec/00_scope.md R11). -/
inductive Agent where
  /-- The TX engine. -/
  | tx
  /-- The RX engine. -/
  | rx
  /-- The router dispatcher. -/
  | rt
  /-- The uplink bridge BU. -/
  | bu
  /-- The downlink bridge BD. -/
  | bd
deriving DecidableEq, Repr

/-- Which of the two forms of spec/44_coupling.md R221 the machine is (log 28). -/
inductive Coupling where
  /-- The composed block (R215): the bridges run, and they are the only callers of the four interfaces (R51). -/
  | bridged
  /-- The halves cut at the bridges (R221): the bridges do not run, and the interfaces are open to the environment. -/
  | cut
deriving DecidableEq, Repr

/-- What the ports give out and what is reported, in firing order. The first four constructors are the ports of R50, the
next two the results of the interfaces of R51, the rest results of pure operations and silent events, which are a
trace and no output of the block (spec/60_exceptions.md R244). -/
inductive Output where
  /-- A byte handed to TXD (R146). -/
  | txd (b : Byte)
  /-- The record `UNROUTABLE(p)` at LOG (R194); `text` is the free rest of the record (log 12). -/
  | log (p : Packet) (text : List Byte)
  /-- A packet handed out at RECV_TEST (R195). -/
  | recvTest (p : Packet)
  /-- A packet handed out at RECV_WIFI (R196). -/
  | recvWifi (p : Packet)
  /-- The result of TRANSPORT_RECEIVE (R181). -/
  | received (p : Packet)
  /-- The result of NEXT_OUTBOUND (R198). -/
  | outbound (p : Packet)
  /-- The result of ENCODE_DATA or ENCODE_SENTINEL (R120, R121). -/
  | encoded (bs : List Byte)
  /-- The result of DECODE_NEXT, `none` for `blocks` (R122). -/
  | decoded (r : Option (Frame × List Byte))
  /-- The report of SIG_WAIT (R142). -/
  | reported (w : SigSet)
  /-- The result of SIG_POLL (R143). -/
  | polled (x : Bool)
  /-- A silent condition of the decoder (R226, R227). -/
  | silent (e : Silent)
deriving DecidableEq, Repr

/-- One entry of the schedule: who moves next (log 3). -/
inductive Move where
  /-- An internal agent takes its turn: it attempts the one step its phase or latch points at (spec/20_memory.md R73). -/
  | agent (a : Agent)
  /-- The RX engine takes the whole frame that waits at the front of the line (log 7). -/
  | frame
  /-- The named port operation or agent's step is attempted; a port operation carries what is offered. What nobody may fire
  on its own (see `fireable`) is not attempted. -/
  | fire (i : Instr)
  /-- A byte reaches the serial driver behind RXD, after those that wait there (spec/60_exceptions.md R247). -/
  | arrive (b : Byte)
  /-- Reset is applied from outside (spec/70_reset_and_hazards.md R260). -/
  | reset
deriving DecidableEq, Repr

/-- The state. The fields up to `bdhold` are the table of R45 and the straps of R48; the last five are the model's own. -/
structure State where
  /-- The configuration straps (R48); no transition writes them. -/
  cfg : Config
  /-- `TIQ` (R25). -/
  tiq : List Packet
  /-- `TEQ` (R26). -/
  teq : List Packet
  /-- `RIQ` (R27). -/
  riq : List Packet
  /-- `ROQ` (R28). -/
  roq : List Packet
  /-- `FQ_TEST` (R29). -/
  fqTest : List Packet
  /-- `FQ_WIFI` (R29). -/
  fqWifi : List Packet
  /-- `FQ_X0`, inert (R30). -/
  fqX0 : List Packet
  /-- `FQ_X1`, inert (R30). -/
  fqX1 : List Packet
  /-- `sig` (R31 to R34). -/
  sig : Sig
  /-- `txph` (R35). -/
  txph : TxPhase
  /-- `txtimer` (R36). -/
  txtimer : Nat
  /-- `txhold` (R37). -/
  txhold : Option Packet
  /-- `txout` (R38). -/
  txout : List Byte
  /-- `txgo` (R39). -/
  txgo : Bool
  /-- `rxph` (R40). -/
  rxph : RxPhase
  /-- `rxlen` (R41). -/
  rxlen : Byte
  /-- `rxidx` (R41). -/
  rxidx : Nat
  /-- `rxbuf` (R42). -/
  rxbuf : List Byte
  /-- `rthold` (R43). -/
  rthold : Option Packet
  /-- `buhold` (R44). -/
  buhold : Option Packet
  /-- `bdhold` (R44). -/
  bdhold : Option Packet
  /-- The model's own (log 5): bytes the driver holds and the RX engine has not taken, oldest first (R53). -/
  rxd : List Byte
  /-- The model's own (log 3): the schedule still to run, next move first. -/
  sched : List Move
  /-- The model's own (log 6): what was given out and reported since reset, oldest first. -/
  out : List Output
  /-- The model's own (log 12): index of the next log record's free text. -/
  fresh : Nat
  /-- The model's own (log 28): the composed block or the two halves cut at the bridges; no transition writes it. -/
  coupling : Coupling
deriving DecidableEq, Repr

/-- What stops the machine as a fault. The block has none in the sense of a trap (spec/60_exceptions.md R249). -/
inductive Fault where
  /-- Raised by RX_DATA_BYTE and RX_DELIVER (and the BYTE and FRAME rows that share their effect) when `rxidx` or `rxlen`
  points outside `rxbuf`. R47 item 6 rules such states out and R42 gives no effect there. Safe (log 14). -/
  | rxBufferRange
deriving DecidableEq, Repr

/-- What a step refuses. -/
inductive Refusal where
  /-- Raised by `exec` for a row without a meaning; no arm of this model uses it. Safe. -/
  | notModelled (mnemonic : String)
  /-- Raised by every instruction when the parameters break a constraint of spec/00_scope.md R8: "the spec gives such a
  block no behaviour". Safe (log 15). -/
  | badParameters
  /-- `REFUSED_INPUT` (spec/60_exceptions.md R231): a byte string that is no packet is offered at SUBMIT, TRANSPORT_SEND or
  POST_INBOUND. Safe (log 16). -/
  | refusedInput
  /-- Raised by ENCODE_DATA on a byte string that is no packet: `frame_of` is applied only to packets (R120). Safe (log 10). -/
  | notAPacket
deriving DecidableEq, Repr

/-- The outcome of a step of this machine. -/
abbrev Result := Host.Outcome State Fault Refusal

/-- R45, last column, with the three unspecified elements and the model's own fields given. -/
def State.resetTo (c : Config) (len : Byte) (idx : Nat) (buf : List Byte) (line : List Byte) (moves : List Move)
    (n : Nat) : State where
  cfg := c
  tiq := []
  teq := []
  riq := []
  roq := []
  fqTest := []
  fqWifi := []
  fqX0 := []
  fqX1 := []
  sig := { pgs := false, owe := false, hob := false }
  txph := .delay
  txtimer := c.tInit
  txhold := none
  txout := []
  txgo := false
  rxph := .hunt
  rxlen := len
  rxidx := idx
  rxbuf := buf
  rthold := none
  buhold := none
  bdhold := none
  rxd := line
  sched := moves
  out := []
  fresh := n
  coupling := .bridged

/-- Reset of a block with the parameters `c`. DESIGN CHOICE (log 2), unsafe: the three elements R45 leaves unspecified
are zero. -/
def State.resetWith (c : Config) : State :=
  State.resetTo c 0x00#8 0 (List.replicate c.mtu 0x00#8) [] [] 0

/-- The machine right after reset (R45, R261), with the parameters of log 1. -/
def State.reset : State := State.resetWith Config.ex

end Sys2Proof.Machine
end

