-- ==== Sys2Proof/Machine/Flags.lean ====
section
/-! DEFINITION. The signal group's three primitives (spec/41_flow_control.md R141 to R143) on the bits themselves. -/

namespace Sys2Proof.Machine

open Sys2Proof

/-- The named bit. -/
def Sig.get (g : Sig) : SigBit → Bool
  | .pgs => g.pgs
  | .owe => g.owe
  | .hob => g.hob

/-- `raise(sig.X)`: a bit already 1 stays 1 (R141). -/
def Sig.raise (g : Sig) : SigBit → Sig
  | .pgs => { g with pgs := true }
  | .owe => { g with owe := true }
  | .hob => { g with hob := true }

/-- What a wait on `m` reports: the bits of `m` that are 1 (R142). -/
def Sig.reported (g : Sig) (m : SigSet) : SigSet where
  pgs := g.pgs && m.pgs
  owe := g.owe && m.owe
  hob := g.hob && m.hob

/-- Clear exactly the bits of `w` (R142). -/
def Sig.clear (g : Sig) (w : SigSet) : Sig where
  pgs := g.pgs && !w.pgs
  owe := g.owe && !w.owe
  hob := g.hob && !w.hob

/-- The set is not empty. -/
def anyBit (w : SigSet) : Bool := w.pgs || w.owe || w.hob

/-- `wait({OWE, HOB})`, the wait set of TX_IDLE_WAIT (R142). -/
def idleSet : SigSet where
  pgs := false
  owe := true
  hob := true

/-- `wait({OWE, PGS})`, the wait set of TX_HOLD_WAIT (R142). -/
def holdSet : SigSet where
  pgs := true
  owe := true
  hob := false

/-- `raise(sig.X)` on the state. -/
def State.raise (s : State) (x : SigBit) : State := { s with sig := s.sig.raise x }

/-- The clearing half of `wait(m)` on the state: the reported bits become 0, in the same transition (R142). -/
def State.waited (s : State) (m : SigSet) : State := { s with sig := s.sig.clear (s.sig.reported m) }

end Sys2Proof.Machine
end

