-- ==== Sys2Proof/Machine/Operands.lean ====
section
/-! DEFINITION. What an operation takes and where it finds it: queues by name (spec/10_state.md R23, R25 to R30; the
primitives `count`, `full`, `empty`, `enq`, `deq` of spec/00_scope.md R10). -/

namespace Sys2Proof.Machine

open Sys2Proof

/-- `cap(Q)` (R7, R25 to R30). -/
def capOf (c : Config) : QueueId → Nat
  | .tiq => c.capTiq
  | .teq => c.capTeq
  | .riq => c.capRiq
  | .roq => c.capRoq
  | .fqTest | .fqWifi | .fqX0 | .fqX1 => c.capFq

/-- The contents of a queue, head first. -/
def State.queue (s : State) : QueueId → List Packet
  | .tiq => s.tiq
  | .teq => s.teq
  | .riq => s.riq
  | .roq => s.roq
  | .fqTest => s.fqTest
  | .fqWifi => s.fqWifi
  | .fqX0 => s.fqX0
  | .fqX1 => s.fqX1

/-- Replace the contents of a queue. -/
def State.setQueue (s : State) (q : QueueId) (l : List Packet) : State :=
  match q with
  | .tiq => { s with tiq := l }
  | .teq => { s with teq := l }
  | .riq => { s with riq := l }
  | .roq => { s with roq := l }
  | .fqTest => { s with fqTest := l }
  | .fqWifi => { s with fqWifi := l }
  | .fqX0 => { s with fqX0 := l }
  | .fqX1 => { s with fqX1 := l }

/-- `not full(Q)`: an `enq` is possible only when `count(Q) < cap(Q)` (R23). -/
abbrev State.hasRoom (s : State) (q : QueueId) : Prop := (s.queue q).length < capOf s.cfg q

/-- `enq(Q, p)`: append at the tail (R23). -/
def State.enq (s : State) (q : QueueId) (p : Packet) : State := s.setQueue q (s.queue q ++ [p])

/-- `deq(Q)`: the head packet and the state without it; `none` when the queue is empty (R23). -/
def State.deq (s : State) (q : QueueId) : Option (Packet × State) :=
  match s.queue q with
  | [] => none
  | p :: l => some (p, s.setQueue q l)

end Sys2Proof.Machine
end

