-- ==== Sys2Proof/Machine/Ops.lean ====
section
/-! DEFINITION. The shared operations: the guarded atomic transition (spec/00_scope.md R9), emitting an event
(spec/60_exceptions.md R225, R237), and the effects that several rows of the table share: the RX engine's byte effects
(spec/40_frame_codec.md R123 to R128), delivery (spec/41_flow_control.md R161) and loading `txout`. -/

namespace Sys2Proof.Machine

open Sys2Proof

/-! ### Guarded transitions -/

/-- A guarded atomic transition (R9): refused when the parameters break R8; fires as `r` when the guard holds; otherwise
the agent or caller is held and nothing changes (R229, log 4). -/
def guarded (s : State) (g : Prop) [Decidable g] (r : Result) : Result :=
  if s.cfg.Valid then (if g then r else .next s) else .refused .badParameters

/-- A transition whose guard is false. -/
def blocked (s : State) : Result := guarded s False (.next s)

/-- An input interface (R180, R190, R197): a byte string that is no packet is refused, before room is looked at. -/
def offered (s : State) (p : Packet) (r : Result) : Result :=
  guarded s True (if IsPacket s.cfg p then r else .refused .refusedInput)

/-- One transition after another. -/
def andThen (r : Result) (f : State → Result) : Result :=
  match r with
  | .next s => f s
  | .fault e => .fault e
  | .refused e => .refused e

/-! ### Events and ports -/

/-- Emit an event or hand an item to a port, in the transition that meets it (R225, R237): nothing else is saved and
control goes nowhere else. -/
def State.emit (s : State) (o : Output) : State := { s with out := s.out ++ [o] }

/-- Emit several. -/
def State.emitAll (s : State) (os : List Output) : State := { s with out := s.out ++ os }

/-- The record of a dropped packet at LOG (R194), with its free text; the counter advances. -/
def State.logDrop (s : State) (p : Packet) : State :=
  { s with out := s.out ++ [.log p (Config.logText s.fresh)], fresh := s.fresh + 1 }

/-! ### The RX engine's effects -/

/-- R123: the byte is discarded, silently. -/
def takeJunk (b : Byte) (s : State) : Result :=
  guarded s (s.rxph = .hunt ∧ b ≠ startMarker) (.next (s.emit (.silent (.framingError b))))

/-- R124: a frame begins. -/
def takeStart (b : Byte) (s : State) : Result :=
  guarded s (s.rxph = .hunt ∧ b = startMarker) (.next { s with rxph := .len })

/-- R125: the frame is a sentinel and is complete. -/
def takeLen0 (b : Byte) (s : State) : Result :=
  guarded s (s.rxph = .len ∧ b = 0x00#8) (.next { s.raise .pgs with rxph := .hunt })

/-- R126: a data frame of `b` bytes follows. -/
def takeLenOk (b : Byte) (s : State) : Result :=
  guarded s (s.rxph = .len ∧ 1 ≤ b.toNat ∧ b.toNat ≤ s.cfg.mtu)
    (.next { s with rxlen := b, rxidx := 0, rxph := .data })

/-- R127: the header is discarded, silently; the byte is not looked at again. -/
def takeLenOver (b : Byte) (s : State) : Result :=
  guarded s (s.rxph = .len ∧ s.cfg.mtu < b.toNat)
    (.next { s.emit (.silent (.overlength b)) with rxph := .hunt })

/-- R128: the byte is stored at `rxidx`; the frame is complete when it is the last. -/
def takeData (b : Byte) (s : State) : Result :=
  guarded s (s.rxph = .data)
    (if s.rxidx < s.rxbuf.length then
      .next { s with
        rxbuf := s.rxbuf.set s.rxidx b
        rxidx := s.rxidx + 1
        rxph := if s.rxidx + 1 = s.rxlen.toNat then .deliver else .data }
    else .fault .rxBufferRange)

/-- R161: enqueue the frame's packet, raise `sig.OWE`, hunt again, all in one transition. -/
def deliver (s : State) : Result :=
  guarded s (s.rxph = .deliver ∧ s.hasRoom .tiq)
    (if 1 ≤ s.rxlen.toNat ∧ s.rxlen.toNat ≤ s.rxbuf.length then
      .next { (s.enq .tiq (s.rxbuf.take s.rxlen.toNat)).raise .owe with rxph := .hunt }
    else .fault .rxBufferRange)

/-- The data bytes of a whole frame, one after the other (R128). -/
def takeAll : List Byte → State → Result
  | [], s => .next s
  | b :: bs, s => andThen (takeData b s) (takeAll bs)

/-- `b = rx_take()` (spec/10_state.md R52): a step of the RX engine whose guard includes that RXD offers a byte it
accepts. The byte is consumed when, and only when, the step fires. -/
def fromLine (s : State) (accepts : Byte → Bool) (f : Byte → State → Result) : Result :=
  match s.rxd with
  | [] => blocked s
  | b :: rest => if accepts b then f b { s with rxd := rest } else blocked s

/-! ### The dispatcher's effects -/

/-- R192, R193: place the held packet whose function byte is `code` in the queue `q`. -/
def routeHeld (code : Byte) (q : QueueId) (s : State) : Result :=
  match s.rthold with
  | none => blocked s
  | some p => guarded s (fnOf p = some code ∧ s.hasRoom q) (.next { s.enq q p with rthold := none })

/-- R194: drop the held packet and hand one record to LOG. -/
def dropHeld (s : State) : Result :=
  match s.rthold with
  | none => blocked s
  | some p => guarded s (Unrouted s.cfg (fnOf p)) (.next { s.logDrop p with rthold := none })

/-! ### Operations on queues that give a result -/

/-- A caller takes the head of a queue; while the queue is empty it is held (R181, R195, R196, R198). -/
def takeFrom (q : QueueId) (give : Packet → Output) (s : State) : Result :=
  match s.deq q with
  | none => blocked s
  | some (p, t) => guarded s True (.next (t.emit (give p)))

/-- R180: append to TEQ and raise `sig.HOB`, in one transition. -/
def sendInto (p : Packet) (s : State) : State := (s.enq .teq p).raise .hob

/-! ### The TX engine's effects -/

/-- Load the sentinel and go to `ph` (R145, R149, R152, R155, R156). -/
def State.loadSent (s : State) (ph : TxPhase) : State := { s with txout := sent, txph := ph }

/-- Load the data frame of `p` and go to TX_DATA_EMIT (R157, R159). -/
def State.loadData (s : State) (p : Packet) : State := { s with txout := frameOf p, txph := .dataEmit }

/-- The end of a frame's write: `txout` is empty in the emit phase `ph`, go on to `after` (R154, R158). -/
def emitDone (ph after : TxPhase) (s : State) : Result :=
  guarded s (s.txph = ph ∧ s.txout = []) (.next { s with txph := after })

end Sys2Proof.Machine
end

