-- ==== Sys2Proof/Machine/Bridges.lean ====
section
/-! DEFINITION. The two bridges' steps (spec/44_coupling.md R216 to R219). -/

namespace Sys2Proof.Machine

open Sys2Proof

/-- BU_FETCH (R216): one firing of TRANSPORT_RECEIVE into the latch. -/
def execBuFetch (s : State) : Result :=
  match s.deq .tiq with
  | none => blocked s
  | some (p, t) => guarded s (s.buhold = none) (.next { t with buhold := some p })

/-- BU_POST (R217): one firing of POST_INBOUND from the latch. -/
def execBuPost (s : State) : Result :=
  match s.buhold with
  | none => blocked s
  | some p => guarded s (s.hasRoom .riq) (.next { s.enq .riq p with buhold := none })

/-- BD_FETCH (R218): one firing of NEXT_OUTBOUND into the latch. -/
def execBdFetch (s : State) : Result :=
  match s.deq .roq with
  | none => blocked s
  | some (p, t) => guarded s (s.bdhold = none) (.next { t with bdhold := some p })

/-- BD_SEND (R219): one firing of TRANSPORT_SEND from the latch. -/
def execBdSend (s : State) : Result :=
  match s.bdhold with
  | none => blocked s
  | some p => guarded s (s.hasRoom .teq) (.next { sendInto p s with bdhold := none })

end Sys2Proof.Machine
end

