-- ==== Sys2Proof/Machine/ByteRows.lean ====
section
/-! DEFINITION. The BYTE rows of spec/30_encoding.md R100: the byte is the instruction's own, handed over by RXD in this
transition (log 8). -/

namespace Sys2Proof.Machine

open Sys2Proof

/-- JUNK (R123). -/
def execJunk (b : Byte) (s : State) : Result := takeJunk b s

/-- START (R124). -/
def execStart (s : State) : Result := takeStart startMarker s

/-- LEN0 (R125). -/
def execLen0 (s : State) : Result := takeLen0 0x00#8 s

/-- LENOK (R126). -/
def execLenok (b : Byte) (s : State) : Result := takeLenOk b s

/-- LENOVER (R127). -/
def execLenover (b : Byte) (s : State) : Result := takeLenOver b s

/-- DATA (R128). -/
def execData (b : Byte) (s : State) : Result := takeData b s

end Sys2Proof.Machine
end

