-- ==== Sys2Proof/Machine/FrameRows.lean ====
section
/-! DEFINITION. The FRAME rows: a whole frame of spec/30_encoding.md R90 taken by the RX engine at a frame boundary, as
the transitions of R124 to R128 and R161 in succession (log 7). -/

namespace Sys2Proof.Machine

open Sys2Proof

/-- SENTINEL, `FF 00`: R124 and R125. -/
def execSentinel (s : State) : Result :=
  guarded s (s.rxph = .hunt) (andThen (takeStart startMarker s) (takeLen0 0x00#8))

/-- DATA_FRAME, `FF LEN data`: R124, R126, R128 for each data byte, and R161 if `TIQ` has room. -/
def execDataFrame (p : Packet) (s : State) : Result :=
  guarded s (s.rxph = .hunt ∧ IsPacket s.cfg p)
    (andThen (andThen (andThen (takeStart startMarker s) (takeLenOk (BitVec.ofNat 8 p.length))) (takeAll p)) deliver)

end Sys2Proof.Machine
end

