-- ==== Sys2Proof/Machine/Interface.lean ====
section
/-! DEFINITION. The IFACE rows: the codec's pure operations (spec/40_frame_codec.md R120 to R122), whose results go to
the trace (log 10), and the four interfaces between the block's halves (spec/10_state.md R51), which a
move attempts only where the halves are cut apart (log 28). -/

namespace Sys2Proof.Machine

open Sys2Proof

/-- ENCODE_DATA (R120). -/
def execEncodeData (p : Packet) (s : State) : Result :=
  guarded s True (if IsPacket s.cfg p then .next (s.emit (.encoded (frameOf p))) else .refused .notAPacket)

/-- ENCODE_SENTINEL (R121). -/
def execEncodeSentinel (s : State) : Result := guarded s True (.next (s.emit (.encoded sent)))

/-- DECODE_NEXT (R122): the silent events, then the result. -/
def execDecodeNext (bs : List Byte) (s : State) : Result :=
  guarded s True (.next ((s.emitAll ((decodeDiscards s.cfg.mtu bs).map .silent)).emit (.decoded (decodeNext s.cfg.mtu bs))))

/-- TRANSPORT_SEND (R180). -/
def execTransportSend (p : Packet) (s : State) : Result :=
  offered s p (guarded s (s.hasRoom .teq) (.next (sendInto p s)))

/-- TRANSPORT_RECEIVE (R181). -/
def execTransportReceive (s : State) : Result := takeFrom .tiq .received s

/-- POST_INBOUND (R190). -/
def execPostInbound (p : Packet) (s : State) : Result :=
  offered s p (guarded s (s.hasRoom .riq) (.next (s.enq .riq p)))

/-- NEXT_OUTBOUND (R198). -/
def execNextOutbound (s : State) : Result := takeFrom .roq .outbound s

end Sys2Proof.Machine
end

