-- ==== Sys2Proof/Machine/Ports.lean ====
section
/-! DEFINITION. The PORT rows: the functional consumers' operations (spec/43_packet_router.md R195 to R197). -/

namespace Sys2Proof.Machine

open Sys2Proof

/-- RECEIVE_FOR_TEST (R195). -/
def execReceiveForTest (s : State) : Result := takeFrom .fqTest .recvTest s

/-- RECEIVE_FOR_WIFI_CTRL (R196). -/
def execReceiveForWifiCtrl (s : State) : Result := takeFrom .fqWifi .recvWifi s

/-- SUBMIT_OUTBOUND (R197). -/
def execSubmitOutbound (p : Packet) (s : State) : Result :=
  offered s p (guarded s (s.hasRoom .roq) (.next (s.enq .roq p)))

end Sys2Proof.Machine
end

