-- ==== Sys2Proof/Machine/RouteRows.lean ====
section
/-! DEFINITION. The ROUTE rows of spec/20_memory.md R69: the dispatcher's decoded turn on the packet it holds
(spec/43_packet_router.md R192 to R194, log 9). -/

namespace Sys2Proof.Machine

open Sys2Proof

/-- ROUTE_TEST (R192). -/
def execRouteTest (s : State) : Result := routeHeld s.cfg.fnTest .fqTest s

/-- ROUTE_WIFI_CTRL (R193). -/
def execRouteWifiCtrl (s : State) : Result := routeHeld s.cfg.fnWifi .fqWifi s

/-- ROUTE_UNROUTED with function byte `f` (R194): fires when the held packet's function byte is that one. -/
def execRouteUnrouted (f : Option Byte) (s : State) : Result :=
  if s.rthold.map fnOf = some f then dropHeld s else blocked s

end Sys2Proof.Machine
end

