-- ==== Sys2Proof/Machine/Router.lean ====
section
/-! DEFINITION. The dispatcher's four steps (spec/43_packet_router.md R191 to R194). -/

namespace Sys2Proof.Machine

open Sys2Proof

/-- RT_FETCH (R191): one packet in hand at a time. -/
def execRtFetch (s : State) : Result :=
  match s.deq .riq with
  | none => blocked s
  | some (p, t) => guarded s (s.rthold = none) (.next { t with rthold := some p })

/-- RT_ROUTE_TEST (R192): the whole image is enqueued; the destination is not examined. -/
def execRtRouteTest (s : State) : Result := routeHeld s.cfg.fnTest .fqTest s

/-- RT_ROUTE_WIFI (R193). -/
def execRtRouteWifi (s : State) : Result := routeHeld s.cfg.fnWifi .fqWifi s

/-- RT_DROP (R194): the guard mentions no queue, so a drop never blocks. -/
def execRtDrop (s : State) : Result := dropHeld s

end Sys2Proof.Machine
end

