-- ==== Sys2Proof/Machine/RxEngine.lean ====
section
/-! DEFINITION. The RX engine's steps: the six that take a byte from RXD (spec/40_frame_codec.md R123 to R128) and
RX_DELIVER (spec/41_flow_control.md R161). -/

namespace Sys2Proof.Machine

open Sys2Proof

/-- RX_JUNK (R123). -/
def execRxJunk (s : State) : Result := fromLine s (fun b => decide (s.rxph = .hunt ∧ b ≠ startMarker)) takeJunk

/-- RX_START (R124). -/
def execRxStart (s : State) : Result := fromLine s (fun b => decide (s.rxph = .hunt ∧ b = startMarker)) takeStart

/-- RX_LEN_SENTINEL (R125). -/
def execRxLenSentinel (s : State) : Result := fromLine s (fun b => decide (s.rxph = .len ∧ b = 0x00#8)) takeLen0

/-- RX_LEN_DATA (R126). -/
def execRxLenData (s : State) : Result :=
  fromLine s (fun b => decide (s.rxph = .len ∧ 1 ≤ b.toNat ∧ b.toNat ≤ s.cfg.mtu)) takeLenOk

/-- RX_LEN_OVER (R127). -/
def execRxLenOver (s : State) : Result := fromLine s (fun b => decide (s.rxph = .len ∧ s.cfg.mtu < b.toNat)) takeLenOver

/-- RX_DATA_BYTE (R128). -/
def execRxDataByte (s : State) : Result := fromLine s (fun _ => decide (s.rxph = .data)) takeData

/-- RX_DELIVER (R161). -/
def execRxDeliver (s : State) : Result := deliver s

end Sys2Proof.Machine
end

