-- ==== Sys2Proof/Machine/Signals.lean ====
section
/-! DEFINITION. The signal primitives (spec/41_flow_control.md R141 to R143). The engines' transitions use the same operations on the
bits as parts of themselves; `step` attempts none of the three on its own (spec/42_serial_transport.md R182, log 11). -/

namespace Sys2Proof.Machine

open Sys2Proof

/-- SIG_RAISE (R141). -/
def execSigRaise (x : SigBit) (s : State) : Result := guarded s True (.next (s.raise x))

/-- SIG_WAIT (R142): while every bit of `m` is 0 the waiting agent is held. -/
def execSigWait (m : SigSet) (s : State) : Result :=
  guarded s (anyBit (s.sig.reported m) = true) (.next ((s.waited m).emit (.reported (s.sig.reported m))))

/-- SIG_POLL (R143): the bit is read and not cleared. -/
def execSigPoll (s : State) : Result := guarded s True (.next (s.emit (.polled s.sig.pgs)))

end Sys2Proof.Machine
end

