-- ==== Sys2Proof/Machine/TxEngine.lean ====
section
/-! DEFINITION. The TX engine's seventeen steps (spec/41_flow_control.md R144 to R160). -/

namespace Sys2Proof.Machine

open Sys2Proof

/-- TX_TICK (R144): counts down in TX_DELAY and TX_SYNC_WAIT, stops at 0; ignored in every other phase. -/
def execTxTick (s : State) : Result :=
  guarded s True
    (.next (if (s.txph = .delay ∨ s.txph = .syncWait) ∧ 0 < s.txtimer then { s with txtimer := s.txtimer - 1 } else s))

/-- TX_DELAY_EXPIRE (R145): `sig.PGS` is not looked at. -/
def execTxDelayExpire (s : State) : Result :=
  guarded s (s.txph = .delay ∧ s.txtimer = 0) (.next (s.loadSent .syncEmit))

/-- TX_EMIT_BYTE (R146): one rule for all four emit phases; the taker accepts (log 23). -/
def execTxEmitByte (s : State) : Result :=
  match s.txout with
  | [] => blocked s
  | b :: rest => guarded s True (.next { s.emit (.txd b) with txout := rest })

/-- TX_SYNC_EMIT_DONE (R147): the retry interval runs from the end of the write. -/
def execTxSyncEmitDone (s : State) : Result :=
  guarded s (s.txph = .syncEmit ∧ s.txout = []) (.next { s with txtimer := s.cfg.tRetry, txph := .syncWait })

/-- TX_SYNC_POLL_HIT (R148): the poll does not clear `sig.PGS` (R143). -/
def execTxSyncPollHit (s : State) : Result :=
  guarded s (s.txph = .syncWait ∧ s.txtimer = 0 ∧ s.sig.get .pgs = true) (.next { s with txph := .check })

/-- TX_SYNC_POLL_MISS (R149). -/
def execTxSyncPollMiss (s : State) : Result :=
  guarded s (s.txph = .syncWait ∧ s.txtimer = 0 ∧ s.sig.get .pgs = false) (.next (s.loadSent .syncEmit))

/-- TX_CHECK_EMPTY (R150): decided by the queue's occupancy, not by `sig.HOB`. -/
def execTxCheckEmpty (s : State) : Result :=
  guarded s (s.txph = .check ∧ s.teq = []) (.next { s with txph := .idleWait })

/-- TX_CHECK_DEQ (R151): `sig.HOB` is not cleared. -/
def execTxCheckDeq (s : State) : Result :=
  match s.deq .teq with
  | none => blocked s
  | some (p, t) => guarded s (s.txph = .check) (.next { t with txhold := some p, txph := .holdWait })

/-- TX_IDLE_WAKE_GRANT (R152): `wait({OWE, HOB})` with OWE reported. -/
def execTxIdleWakeGrant (s : State) : Result :=
  guarded s (s.txph = .idleWait ∧ s.sig.get .owe = true) (.next ((s.waited idleSet).loadSent .idleEmit))

/-- TX_IDLE_WAKE_OUTBOUND (R153): `wait({OWE, HOB})` with HOB alone reported. -/
def execTxIdleWakeOutbound (s : State) : Result :=
  guarded s (s.txph = .idleWait ∧ s.sig.get .owe = false ∧ s.sig.get .hob = true)
    (.next { s.waited idleSet with txph := .check })

/-- TX_IDLE_EMIT_DONE (R154). -/
def execTxIdleEmitDone (s : State) : Result := emitDone .idleEmit .check s

/-- TX_HOLD_WAKE_GRANT (R155): `wait({OWE, PGS})` with OWE alone reported; the held packet stays. -/
def execTxHoldWakeGrant (s : State) : Result :=
  guarded s (s.txph = .holdWait ∧ s.sig.get .owe = true ∧ s.sig.get .pgs = false)
    (.next { (s.waited holdSet).loadSent .grantEmit with txgo := false })

/-- TX_HOLD_WAKE_BOTH (R156): both reported; the credit is remembered in `txgo`. -/
def execTxHoldWakeBoth (s : State) : Result :=
  guarded s (s.txph = .holdWait ∧ s.sig.get .owe = true ∧ s.sig.get .pgs = true)
    (.next { (s.waited holdSet).loadSent .grantEmit with txgo := true })

/-- TX_HOLD_WAKE_SEND (R157): PGS alone reported; the credit is spent before the first byte. -/
def execTxHoldWakeSend (s : State) : Result :=
  match s.txhold with
  | none => blocked s
  | some p =>
    guarded s (s.txph = .holdWait ∧ s.sig.get .owe = false ∧ s.sig.get .pgs = true) (.next ((s.waited holdSet).loadData p))

/-- TX_GRANT_EMIT_DONE_BACK (R158). -/
def execTxGrantEmitDoneBack (s : State) : Result :=
  if s.txgo then blocked s else emitDone .grantEmit .holdWait s

/-- TX_GRANT_EMIT_DONE_GO (R159). -/
def execTxGrantEmitDoneGo (s : State) : Result :=
  match s.txhold with
  | none => blocked s
  | some p =>
    guarded s (s.txph = .grantEmit ∧ s.txout = [] ∧ s.txgo = true) (.next { s.loadData p with txgo := false })

/-- TX_DATA_EMIT_DONE (R160). -/
def execTxDataEmitDone (s : State) : Result :=
  guarded s (s.txph = .dataEmit ∧ s.txout = []) (.next { s with txhold := none, txph := .check })

end Sys2Proof.Machine
end

