-- ==== Sys2Proof/Machine/Dispatch.lean ====
section
/-! DEFINITION. One arm per row of spec/opcode_table.json, each a direct call of the row's meaning. -/

namespace Sys2Proof.Machine

open Sys2Proof

def exec (i : Instr) (s : State) : Host.Outcome State Fault Refusal :=
  match i with
  | .sentinel => Sys2Proof.Machine.execSentinel s
  | .dataFrame p => Sys2Proof.Machine.execDataFrame p s
  | .junk b => Sys2Proof.Machine.execJunk b s
  | .start => Sys2Proof.Machine.execStart s
  | .len0 => Sys2Proof.Machine.execLen0 s
  | .lenok b => Sys2Proof.Machine.execLenok b s
  | .lenover b => Sys2Proof.Machine.execLenover b s
  | .data b => Sys2Proof.Machine.execData b s
  | .routeTest => Sys2Proof.Machine.execRouteTest s
  | .routeWifiCtrl => Sys2Proof.Machine.execRouteWifiCtrl s
  | .routeUnrouted f => Sys2Proof.Machine.execRouteUnrouted f s
  | .encodeData p => Sys2Proof.Machine.execEncodeData p s
  | .encodeSentinel => Sys2Proof.Machine.execEncodeSentinel s
  | .decodeNext bs => Sys2Proof.Machine.execDecodeNext bs s
  | .transportSend p => Sys2Proof.Machine.execTransportSend p s
  | .transportReceive => Sys2Proof.Machine.execTransportReceive s
  | .postInbound p => Sys2Proof.Machine.execPostInbound p s
  | .nextOutbound => Sys2Proof.Machine.execNextOutbound s
  | .receiveForTest => Sys2Proof.Machine.execReceiveForTest s
  | .receiveForWifiCtrl => Sys2Proof.Machine.execReceiveForWifiCtrl s
  | .submitOutbound p => Sys2Proof.Machine.execSubmitOutbound p s
  | .sigRaise x => Sys2Proof.Machine.execSigRaise x s
  | .sigWait m => Sys2Proof.Machine.execSigWait m s
  | .sigPoll => Sys2Proof.Machine.execSigPoll s
  | .rxDeliver => Sys2Proof.Machine.execRxDeliver s
  | .txTick => Sys2Proof.Machine.execTxTick s
  | .txDelayExpire => Sys2Proof.Machine.execTxDelayExpire s
  | .txEmitByte => Sys2Proof.Machine.execTxEmitByte s
  | .txSyncEmitDone => Sys2Proof.Machine.execTxSyncEmitDone s
  | .txSyncPollHit => Sys2Proof.Machine.execTxSyncPollHit s
  | .txSyncPollMiss => Sys2Proof.Machine.execTxSyncPollMiss s
  | .txCheckEmpty => Sys2Proof.Machine.execTxCheckEmpty s
  | .txCheckDeq => Sys2Proof.Machine.execTxCheckDeq s
  | .txIdleWakeGrant => Sys2Proof.Machine.execTxIdleWakeGrant s
  | .txIdleWakeOutbound => Sys2Proof.Machine.execTxIdleWakeOutbound s
  | .txIdleEmitDone => Sys2Proof.Machine.execTxIdleEmitDone s
  | .txHoldWakeGrant => Sys2Proof.Machine.execTxHoldWakeGrant s
  | .txHoldWakeBoth => Sys2Proof.Machine.execTxHoldWakeBoth s
  | .txHoldWakeSend => Sys2Proof.Machine.execTxHoldWakeSend s
  | .txGrantEmitDoneBack => Sys2Proof.Machine.execTxGrantEmitDoneBack s
  | .txGrantEmitDoneGo => Sys2Proof.Machine.execTxGrantEmitDoneGo s
  | .txDataEmitDone => Sys2Proof.Machine.execTxDataEmitDone s
  | .rxJunk => Sys2Proof.Machine.execRxJunk s
  | .rxStart => Sys2Proof.Machine.execRxStart s
  | .rxLenSentinel => Sys2Proof.Machine.execRxLenSentinel s
  | .rxLenData => Sys2Proof.Machine.execRxLenData s
  | .rxLenOver => Sys2Proof.Machine.execRxLenOver s
  | .rxDataByte => Sys2Proof.Machine.execRxDataByte s
  | .rtFetch => Sys2Proof.Machine.execRtFetch s
  | .rtRouteTest => Sys2Proof.Machine.execRtRouteTest s
  | .rtRouteWifi => Sys2Proof.Machine.execRtRouteWifi s
  | .rtDrop => Sys2Proof.Machine.execRtDrop s
  | .buFetch => Sys2Proof.Machine.execBuFetch s
  | .buPost => Sys2Proof.Machine.execBuPost s
  | .bdFetch => Sys2Proof.Machine.execBdFetch s
  | .bdSend => Sys2Proof.Machine.execBdSend s

end Sys2Proof.Machine
end

