-- ==== Sys2Proof/Machine/Fetch.lean ====
section
/-! DEFINITION. From a move of the schedule to the instruction it attempts: the byte that RXD offers is classified by
the decoder, the held packet by the function-code map, and each engine's turn by its phase or latch
(spec/20_memory.md R73, spec/41_flow_control.md R163). And what the environment does on its own (spec/60_exceptions.md R247). -/

namespace Sys2Proof.Machine

open Sys2Proof

/-- The one rule each TX phase leaves room for (R163). Where none is enabled, the rule named here is held. -/
def txTurn (s : State) : Instr :=
  match s.txph with
  | .delay => .txDelayExpire
  | .syncEmit => if s.txout = [] then .txSyncEmitDone else .txEmitByte
  | .syncWait => if s.sig.pgs then .txSyncPollHit else .txSyncPollMiss
  | .check => if s.teq = [] then .txCheckEmpty else .txCheckDeq
  | .idleWait => if s.sig.owe then .txIdleWakeGrant else .txIdleWakeOutbound
  | .idleEmit => if s.txout = [] then .txIdleEmitDone else .txEmitByte
  | .holdWait => if s.sig.owe then (if s.sig.pgs then .txHoldWakeBoth else .txHoldWakeGrant) else .txHoldWakeSend
  | .grantEmit =>
    if s.txout = [] then (if s.txgo then .txGrantEmitDoneGo else .txGrantEmitDoneBack) else .txEmitByte
  | .dataEmit => if s.txout = [] then .txDataEmitDone else .txEmitByte

/-- The dispatcher fetches with an empty latch, and otherwise decodes the packet it holds (R43, R101). -/
def rtTurn (s : State) : Instr :=
  match s.rthold with
  | none => .rtFetch
  | some p => decodeRoute s.cfg (fnOf p)

/-- Each bridge alternates fetch and pass (R73). -/
def buTurn (s : State) : Instr := if s.buhold = none then .buFetch else .buPost

/-- Each bridge alternates fetch and pass (R73). -/
def bdTurn (s : State) : Instr := if s.bdhold = none then .bdFetch else .bdSend

/-- The RX engine delivers in RX_DELIVER; otherwise it takes the byte RXD offers, classified by R100, and the byte is
consumed (spec/20_memory.md R68). `none`: RXD offers nothing. -/
def rxTurn (s : State) : Option (Instr × State) :=
  match s.rxph, s.rxd with
  | .deliver, _ => some (.rxDeliver, s)
  | _, [] => none
  | ph, b :: rest => (decodeByte ph s.cfg.mtu b).toOption.map fun i => (i, { s with rxd := rest })

/-- What a move may fire by name (log 28): the ports of spec/10_state.md R50 but the line's, and the internal agents' own
steps, which find their bytes and packets in the state. In the composed block the bridges run and nobody else calls the
interfaces (R51, spec/60_exceptions.md R240); with the halves cut apart it is the other way round
(spec/44_coupling.md R221). Nobody fires a bare signal primitive (spec/42_serial_transport.md R182, log 11), nor a FRAME or
BYTE row on its own: those bytes come from RXD, oldest first (logs 7 and 8). -/
def fireable (c : Coupling) : Instr → Bool
  | .sentinel | .dataFrame _ | .junk _ | .start | .len0 | .lenok _ | .lenover _ | .data _ => false
  | .sigRaise _ | .sigWait _ | .sigPoll => false
  | .encodeData _ | .encodeSentinel | .decodeNext _
  | .transportSend _ | .transportReceive | .postInbound _ | .nextOutbound => decide (c = .cut)
  | .buFetch | .buPost | .bdFetch | .bdSend => decide (c = .bridged)
  | .routeTest | .routeWifiCtrl | .routeUnrouted _ | .receiveForTest | .receiveForWifiCtrl | .submitOutbound _
  | .rxDeliver | .txTick | .txDelayExpire | .txEmitByte | .txSyncEmitDone | .txSyncPollHit | .txSyncPollMiss
  | .txCheckEmpty | .txCheckDeq | .txIdleWakeGrant | .txIdleWakeOutbound | .txIdleEmitDone | .txHoldWakeGrant
  | .txHoldWakeBoth | .txHoldWakeSend | .txGrantEmitDoneBack | .txGrantEmitDoneGo | .txDataEmitDone
  | .rxJunk | .rxStart | .rxLenSentinel | .rxLenData | .rxLenOver | .rxDataByte
  | .rtFetch | .rtRouteTest | .rtRouteWifi | .rtDrop => true

/-- The named instruction, where it may be fired by name. -/
def fireNamed (i : Instr) (s : State) : Option (Instr × State) :=
  if fireable s.coupling i then some (i, s) else none

/-- The instruction a move attempts, and the state it is attempted in. A bridge's turn attempts nothing where the halves
are cut apart. -/
def fetch (m : Move) (s : State) : Option (Instr × State) :=
  match m with
  | .agent .tx => some (txTurn s, s)
  | .agent .rx => rxTurn s
  | .agent .rt => some (rtTurn s, s)
  | .agent .bu => fireNamed (buTurn s) s
  | .agent .bd => fireNamed (bdTurn s) s
  | .frame => (decodeFrame s.rxph s.cfg.mtu s.rxd).toOption.map fun x => (x.1, { s with rxd := x.2 })
  | .fire i => fireNamed i s
  | .arrive _ => none
  | .reset => none

/-- Reset applied from outside (R260, R261, R264): every element of R45 takes its reset value, the straps stay (R48), the
bytes the driver holds stay (R265), and the trace begins anew. -/
def applyReset (s : State) : State :=
  { State.resetWith s.cfg with rxd := s.rxd, sched := s.sched, fresh := s.fresh, coupling := s.coupling }

/-- A move that attempts no instruction: the environment's own moves; an RX turn or whole-frame turn for which the line
does not offer what it needs, which waits; and a named instruction that nobody may fire, see `fireable`. The environment
has no move that reorders the waiting bytes, and none by which the log sink refuses a record (R247, log 27). -/
def environment (m : Move) (s : State) : Result :=
  match m with
  | .arrive b => guarded s True (.next { s with rxd := s.rxd ++ [b] })
  | .reset => guarded s True (.next (applyReset s))
  | .agent _ | .frame | .fire _ => blocked s

/-- The bytes and the move that make the next step read a table word (log 13): the bytes at the front of the line, the
phase in which they are read, and the RX engine's turn. -/
def placeWord (s : State) (nbits w : Nat) : State :=
  match tableLine s.cfg.mtu nbits w with
  | [] => s
  | [b] =>
    let t := { s with rxph := tablePhase b, rxd := b :: s.rxd, sched := .agent .rx :: s.sched }
    if tablePhase b = .data then { t with rxlen := 0x01#8, rxidx := 0 } else t
  | b :: n :: bs => { s with rxph := .hunt, rxd := b :: n :: (bs ++ s.rxd), sched := .frame :: s.sched }

end Sys2Proof.Machine
end

