-- ==== Sys2Proof/Machine/Step.lean ====
section
/-! DEFINITION. One step of the machine: the next move of the schedule is taken (spec/00_scope.md R9: exactly one transition
fires at a time; every interleaving is some schedule, log 3). -/

namespace Sys2Proof.Machine

open Sys2Proof

/-- One step. With no move scheduled nobody steps. -/
def step (s : State) : Host.Outcome State Fault Refusal :=
  match s.sched with
  | [] => blocked s
  | m :: ms =>
    match fetch m { s with sched := ms } with
    | some (i, t) => exec i t
    | none => environment m { s with sched := ms }

/-- `s` with the table word `w` placed where `step` fetches next (log 13). -/
def State.withFetchWord (s : State) (nbits w : Nat) : State := placeWord s nbits w

end Sys2Proof.Machine
end

