-- ==== Sys2Proof/Safety.lean ====
section
/-! DEFINITION. What a safe state and a safe run are, in the words of the spec: the invariants of spec/10_state.md R47, the
phase graph of spec/41_flow_control.md R163, the credit and grant counts of R165 and R168, and the order in which packets
stand in the two paths (spec/20_memory.md R74, R77; spec/10_state.md R54). -/

namespace Sys2Proof.Machine

open Sys2Proof

/-! ### Who fires what -/

/-- The instructions that the composed block's agents and its ports fire: all but the codec's pure operations and the
signal primitives, which are parts of other transitions, and the four interfaces whose only callers are the bridges
(spec/10_state.md R50, R51). -/
def ofBlock : Instr → Bool
  | .encodeData _ | .encodeSentinel | .decodeNext _ | .sigRaise _ | .sigWait _ | .sigPoll => false
  | .transportSend _ | .transportReceive | .postInbound _ | .nextOutbound => false
  | .sentinel | .dataFrame _ | .junk _ | .start | .len0 | .lenok _ | .lenover _ | .data _
  | .routeTest | .routeWifiCtrl | .routeUnrouted _ | .receiveForTest | .receiveForWifiCtrl | .submitOutbound _
  | .rxDeliver | .txTick | .txDelayExpire | .txEmitByte | .txSyncEmitDone | .txSyncPollHit | .txSyncPollMiss
  | .txCheckEmpty | .txCheckDeq | .txIdleWakeGrant | .txIdleWakeOutbound | .txIdleEmitDone | .txHoldWakeGrant
  | .txHoldWakeBoth | .txHoldWakeSend | .txGrantEmitDoneBack | .txGrantEmitDoneGo | .txDataEmitDone
  | .rxJunk | .rxStart | .rxLenSentinel | .rxLenData | .rxLenOver | .rxDataByte
  | .rtFetch | .rtRouteTest | .rtRouteWifi | .rtDrop | .buFetch | .buPost | .bdFetch | .bdSend => true

/-- The operations that somebody outside the two engines calls: the codec's pure ones, the four interfaces and the
three ports (spec/30_encoding.md R103). -/
def callable : Instr → Bool
  | .encodeData _ | .encodeSentinel | .decodeNext _ | .transportSend _ | .transportReceive | .postInbound _
  | .nextOutbound | .receiveForTest | .receiveForWifiCtrl | .submitOutbound _ => true
  | _ => false

/-- The TX engine's own rules, R145 to R160 (R144 is fired by the TICK port). -/
def txOwn : Instr → Bool
  | .txDelayExpire | .txEmitByte | .txSyncEmitDone | .txSyncPollHit | .txSyncPollMiss
  | .txCheckEmpty | .txCheckDeq | .txIdleWakeGrant | .txIdleWakeOutbound | .txIdleEmitDone | .txHoldWakeGrant
  | .txHoldWakeBoth | .txHoldWakeSend | .txGrantEmitDoneBack | .txGrantEmitDoneGo | .txDataEmitDone => true
  | _ => false

/-- A sequence of transitions, one after the other. -/
def execAll : List Instr → State → Result
  | [], s => .next s
  | i :: is, s => andThen (exec i s) (execAll is)

/-- `k` steps of the machine. -/
def runSteps : Nat → State → Result
  | 0, s => .next s
  | k + 1, s => andThen (step s) (runSteps k)

/-- The rows that the RX engine carries out: FRAME, BYTE, RX_* and RX_DELIVER. -/
def rxOwn : Instr → Bool
  | .sentinel | .dataFrame _ | .junk _ | .start | .len0 | .lenok _ | .lenover _ | .data _
  | .rxJunk | .rxStart | .rxLenSentinel | .rxLenData | .rxLenOver | .rxDataByte | .rxDeliver => true
  | _ => false

/-- The rows that the dispatcher carries out. -/
def rtOwn : Instr → Bool
  | .routeTest | .routeWifiCtrl | .routeUnrouted _ | .rtFetch | .rtRouteTest | .rtRouteWifi | .rtDrop => true
  | _ => false

/-! ### The invariants of R47 -/

/-- The bytes handed to TXD, in order. -/
def txdBytes (out : List Output) : List Byte :=
  out.filterMap fun o => match o with
    | .txd b => some b
    | _ => none

/-- A frame of the block: the sentinel, or a data frame of a packet (R22). -/
def FrameOk (c : Config) : Frame → Prop
  | .sentinel => True
  | .data p => IsPacket c p

/-- The four phases in which a frame is being written (R38). -/
def emitPhase : TxPhase → Bool
  | .syncEmit | .idleEmit | .grantEmit | .dataEmit => true
  | .delay | .syncWait | .check | .idleWait | .holdWait => false

/-- The three phases in which the TX engine holds a packet (R37). -/
def holdPhase : TxPhase → Bool
  | .holdWait | .grantEmit | .dataEmit => true
  | .delay | .syncEmit | .syncWait | .check | .idleWait | .idleEmit => false

/-- Item 1: no queue holds more than its capacity. -/
def QueuesBounded (s : State) : Prop := ∀ q, (s.queue q).length ≤ capOf s.cfg q

/-- The four latches (R24). -/
def heldIn (s : State) (p : Packet) : Prop :=
  s.txhold = some p ∨ s.rthold = some p ∨ s.buhold = some p ∨ s.bdhold = some p

/-- Item 2: every packet in a queue or latch has 1 to `MTU` bytes. -/
def PacketsSized (s : State) : Prop :=
  (∀ q, ∀ p ∈ s.queue q, IsPacket s.cfg p) ∧ ∀ p, heldIn s p → IsPacket s.cfg p

/-- Item 3: `txhold` holds a packet exactly in the three holding phases. -/
def HoldMatchesPhase (s : State) : Prop := s.txhold.isSome = holdPhase s.txph

/-- Item 4: `txout` is empty outside the emit phases and never longer than `MTU + 2`. -/
def OutMatchesPhase (s : State) : Prop :=
  (s.txout ≠ [] → emitPhase s.txph = true) ∧ s.txout.length ≤ s.cfg.mtu + 2

/-- Item 5: `txgo` is 1 only in TX_GRANT_EMIT. -/
def GoMatchesPhase (s : State) : Prop := s.txgo = true → s.txph = .grantEmit

/-- Item 6, with the sizes of `rxbuf` and `rxidx` (R41, R42, R45). -/
def RxRange (s : State) : Prop :=
  s.rxbuf.length = s.cfg.mtu ∧ s.rxidx ≤ s.cfg.mtu ∧
  (s.rxph = .data → 1 ≤ s.rxlen.toNat ∧ s.rxlen.toNat ≤ s.cfg.mtu ∧ s.rxidx < s.rxlen.toNat) ∧
  (s.rxph = .deliver → 1 ≤ s.rxlen.toNat ∧ s.rxlen.toNat ≤ s.cfg.mtu ∧ s.rxidx = s.rxlen.toNat)

/-- Item 7: the inert queues are empty. -/
def InertEmpty (s : State) : Prop := s.fqX0 = [] ∧ s.fqX1 = []

/-- Item 8: the bytes handed to TXD since reset are whole frames followed by a proper initial part of one frame, the rest
of which is `txout`. -/
def LineFramed (s : State) : Prop :=
  ∃ (fs : List Frame) (part : List Byte),
    (∀ f ∈ fs, FrameOk s.cfg f) ∧ txdBytes s.out = fs.flatMap frameBytes ++ part ∧
    ((part = [] ∧ s.txout = []) ∨
      (s.txout ≠ [] ∧ ∃ f, FrameOk s.cfg f ∧ part ++ s.txout = frameBytes f))

/-- The range of `txtimer` (R36). -/
def TimerRange (s : State) : Prop := s.txtimer ≤ max s.cfg.tInit s.cfg.tRetry

/-- R47, all eight items, and the range of `txtimer` (R36). -/
structure Inv (s : State) : Prop where
  queues : QueuesBounded s
  packets : PacketsSized s
  hold : HoldMatchesPhase s
  txout : OutMatchesPhase s
  go : GoMatchesPhase s
  rx : RxRange s
  inert : InertEmpty s
  line : LineFramed s
  timer : TimerRange s

/-! ### The TX phase graph -/

/-- The startup phases. -/
def inStartup : TxPhase → Bool
  | .delay | .syncEmit | .syncWait => true
  | .check | .idleWait | .idleEmit | .holdWait | .grantEmit | .dataEmit => false

/-- R163: the table's edges with the rule that takes each and its condition, read in the state before the transition. -/
def txEdge (s : State) (i : Instr) : TxPhase → TxPhase → Prop
  | .delay, .syncEmit => i = .txDelayExpire ∧ s.txtimer = 0
  | .syncEmit, .syncWait => i = .txSyncEmitDone ∧ s.txout = []
  | .syncWait, .syncEmit => i = .txSyncPollMiss ∧ s.txtimer = 0 ∧ s.sig.pgs = false
  | .syncWait, .check => i = .txSyncPollHit ∧ s.txtimer = 0 ∧ s.sig.pgs = true
  | .check, .idleWait => i = .txCheckEmpty ∧ s.teq = []
  | .check, .holdWait => i = .txCheckDeq ∧ s.teq ≠ []
  | .idleWait, .idleEmit => i = .txIdleWakeGrant ∧ s.sig.owe = true
  | .idleWait, .check => i = .txIdleWakeOutbound ∧ s.sig.owe = false ∧ s.sig.hob = true
  | .idleEmit, .check => i = .txIdleEmitDone ∧ s.txout = []
  | .holdWait, .grantEmit =>
    (i = .txHoldWakeGrant ∧ s.sig.owe = true ∧ s.sig.pgs = false) ∨
      (i = .txHoldWakeBoth ∧ s.sig.owe = true ∧ s.sig.pgs = true)
  | .holdWait, .dataEmit => i = .txHoldWakeSend ∧ s.sig.owe = false ∧ s.sig.pgs = true
  | .grantEmit, .holdWait => i = .txGrantEmitDoneBack ∧ s.txout = [] ∧ s.txgo = false
  | .grantEmit, .dataEmit => i = .txGrantEmitDoneGo ∧ s.txout = [] ∧ s.txgo = true
  | .dataEmit, .check => i = .txDataEmitDone ∧ s.txout = []
  | _, _ => False

/-- What R263 says of the bytes on TXD, when `k` ticks have been counted since reset: none before `T_INIT` ticks; then the
first sentinel, as far as it is written; and ever after those two bytes stand first. -/
def FirstSentinel (k : Nat) (s : State) : Prop :=
  match s.txph with
  | .delay => txdBytes s.out = [] ∧ s.txout = [] ∧ s.cfg.tInit ≤ s.txtimer + k
  | .syncEmit => s.cfg.tInit ≤ k ∧ (txdBytes s.out ++ s.txout = sent ∨ sent <+: txdBytes s.out)
  | .syncWait | .check | .idleWait | .idleEmit | .holdWait | .grantEmit | .dataEmit =>
    s.cfg.tInit ≤ k ∧ sent <+: txdBytes s.out

/-! ### Credits and grants -/

/-- The credits in hand: `sig.PGS`, and the credit a wake has already consumed and `txgo` remembers (R39). -/
def credits (s : State) : Nat := s.sig.pgs.toNat + s.txgo.toNat

/-- 1 when `i`, fired in `s`, decodes a sentinel (R125). -/
def heardBy (i : Instr) (s : State) : Nat :=
  match i with
  | .sentinel => if s.rxph = .hunt then 1 else 0
  | .len0 => if s.rxph = .len then 1 else 0
  | .rxLenSentinel => if s.rxph = .len ∧ s.rxd.head? = some 0x00#8 then 1 else 0
  | _ => 0

/-- The packets that `i`, fired in `s`, puts into `TIQ` from the line (R161). -/
def deliveredBy (i : Instr) (s : State) : List Packet :=
  match i with
  | .rxDeliver => if s.rxph = .deliver ∧ s.hasRoom .tiq then [s.rxbuf.take s.rxlen.toNat] else []
  | .dataFrame p => if s.rxph = .hunt ∧ IsPacket s.cfg p ∧ s.hasRoom .tiq then [p] else []
  | _ => []

/-- The packets that `i`, fired in `s`, puts into `ROQ` (R197). -/
def submittedBy (i : Instr) (s : State) : List Packet :=
  match i with
  | .submitOutbound p => if IsPacket s.cfg p ∧ s.hasRoom .roq then [p] else []
  | _ => []

/-- 1 when the transition from `s` to `t` begins a data frame. -/
def dataBegun (s t : State) : Nat := if s.txph ≠ .dataEmit ∧ t.txph = .dataEmit then 1 else 0

/-- 1 when the transition from `s` to `t` begins a steady-state sentinel, a grant. -/
def grantBegun (s t : State) : Nat :=
  if (s.txph = .idleWait ∧ t.txph = .idleEmit) ∨ (s.txph = .holdWait ∧ t.txph = .grantEmit) then 1 else 0

/-- A count along a sequence of transitions; a transition that stops the machine ends it. -/
def sumAlong (f : Instr → State → State → Nat) : List Instr → State → Nat
  | [], _ => 0
  | i :: is, s =>
    match exec i s with
    | .next t => f i s t + sumAlong f is t
    | .fault _ => 0
    | .refused _ => 0

/-! ### Where the packets are -/

/-- The inbound packets between `TIQ` and the dispatcher's decision, oldest first (R74). -/
def inboundPipe (s : State) : List Packet := s.rthold.toList ++ s.riq ++ s.buhold.toList ++ s.tiq

/-- The packet's function byte is `code`. -/
def hasCode (code : Byte) (p : Packet) : Bool := decide (fnOf p = some code)

/-- The "test" packets that have entered the block since reset, in order: handed out, queued, on their way. -/
def testFlow (s : State) : List Packet :=
  s.out.filterMap (fun o => match o with | .recvTest p => some p | _ => none) ++ s.fqTest ++
    (inboundPipe s).filter (hasCode s.cfg.fnTest)

/-- The "wireless-control" packets that have entered the block since reset, in order. -/
def wifiFlow (s : State) : List Packet :=
  s.out.filterMap (fun o => match o with | .recvWifi p => some p | _ => none) ++ s.fqWifi ++
    (inboundPipe s).filter (hasCode s.cfg.fnWifi)

/-- The unroutable packets that have entered the block since reset, in order: logged, or on their way. -/
def dropFlow (s : State) : List Packet :=
  s.out.filterMap (fun o => match o with | .log p _ => some p | _ => none) ++
    (inboundPipe s).filter (fun p => decide (Unrouted s.cfg (fnOf p)))

/-- The outbound packets not yet written whole to TXD, oldest first (R74). A packet whose frame's last byte has gone is
written although `txhold` still shows it. -/
def outboundPipe (s : State) : List Packet :=
  (if s.txph = .dataEmit ∧ s.txout = [] then [] else s.txhold.toList) ++ s.teq ++ s.bdhold.toList ++ s.roq

/-- The packets of the data frames among `fs`. -/
def dataOf (fs : List Frame) : List Packet :=
  fs.filterMap fun f => match f with
    | .sentinel => none
    | .data p => some p

/-- The packets `ps` are exactly those of the data frames written to TXD followed by those on their way out, and the frame
being written is the held packet's in TX_DATA_EMIT and a sentinel in the other emit phases. -/
def OutboundAccount (ps : List Packet) (s : State) : Prop :=
  ∃ (fs : List Frame) (part : List Byte), (∀ f ∈ fs, FrameOk s.cfg f) ∧
    txdBytes s.out = fs.flatMap frameBytes ++ part ∧ ps = dataOf fs ++ outboundPipe s ∧
    ((part = [] ∧ s.txout = []) ∨
      (s.txout ≠ [] ∧ s.txph = .dataEmit ∧ ∃ p, s.txhold = some p ∧ part ++ s.txout = frameOf p) ∨
      (s.txout ≠ [] ∧ s.txph ≠ .dataEmit ∧ part ++ s.txout = sent))

end Sys2Proof.Machine
end

