-- ==== Sys2Proof/Certificates/Slice0/Obligations.lean ====
section
/-! DEFINITION. The statements for the provers. Each docstring names the rules of spec/ that the statement rests on. -/

open Sys2Proof Sys2Proof.Machine

/-- After reset every element has the value of R45's table. Rules R45. -/
def Obligations.ResetStateTable : Prop :=
  ∀ (c : Config) (len : Byte) (idx : Nat) (buf line : List Byte) (moves : List Move) (n : Nat),
    let s := State.resetTo c len idx buf line moves n
    s.tiq = [] ∧ s.teq = [] ∧ s.riq = [] ∧ s.roq = [] ∧ s.fqTest = [] ∧ s.fqWifi = [] ∧ s.fqX0 = [] ∧ s.fqX1 = [] ∧
    s.sig.pgs = false ∧ s.sig.owe = false ∧ s.sig.hob = false ∧
    s.txph = .delay ∧ s.txtimer = c.tInit ∧ s.txhold = none ∧ s.txout = [] ∧ s.txgo = false ∧
    s.rxph = .hunt ∧ s.rthold = none ∧ s.buhold = none ∧ s.bdhold = none ∧ s.cfg = c

/-- An applied reset gives every element its reset value and keeps what waits in the driver. Rules R260, R261, R264, R265. The model's own choices or inferences in it: log 18. -/
def Obligations.ExternalResetRestoresResetState : Prop :=
  ∀ (s : State) (ms : List Move), s.cfg.Valid → s.sched = .reset :: ms →
    ∃ t, step s = .next t ∧ t.cfg = s.cfg ∧
      t.tiq = [] ∧ t.teq = [] ∧ t.riq = [] ∧ t.roq = [] ∧ t.fqTest = [] ∧ t.fqWifi = [] ∧ t.fqX0 = [] ∧ t.fqX1 = [] ∧
      t.sig.pgs = false ∧ t.sig.owe = false ∧ t.sig.hob = false ∧
      t.txph = .delay ∧ t.txtimer = s.cfg.tInit ∧ t.txhold = none ∧ t.txout = [] ∧ t.txgo = false ∧
      t.rxph = .hunt ∧ t.rthold = none ∧ t.buhold = none ∧ t.bdhold = none ∧
      t.rxd = s.rxd ∧ t.out = []

/-- The state after reset meets the invariants of R47. Rules R45, R47. -/
def Obligations.ResetMeetsInvariant : Prop :=
  (∀ (c : Config) (len : Byte) (idx : Nat) (buf line : List Byte) (moves : List Move) (n : Nat),
      c.Valid → idx ≤ c.mtu → buf.length = c.mtu → Inv (State.resetTo c len idx buf line moves n)) ∧
    Inv State.reset

/-- The RX engine's turn runs the class of the byte at RXD and consumes the byte. Rules R50, R52, R100. The model's own choices or inferences in it: log 3, 5, 8. -/
def Obligations.StepRunsByteAtRxd : Prop :=
  ∀ (s : State) (ms : List Move), s.sched = .agent .rx :: ms →
    (∀ b rest i, s.rxph ≠ .deliver → s.rxd = b :: rest → decodeByte s.rxph s.cfg.mtu b = .ok i →
      step s = exec i { s with sched := ms, rxd := rest }) ∧
    (s.rxph = .deliver → step s = exec .rxDeliver { s with sched := ms }) ∧
    (s.cfg.Valid → s.rxph ≠ .deliver → s.rxd = [] → step s = .next { s with sched := ms })

/-- A whole-frame move runs the frame at the front of the line and consumes its bytes. Rules R90, R96, R102. The model's own choices or inferences in it: log 3, 5, 7. -/
def Obligations.StepRunsFrameOnLine : Prop :=
  ∀ (s : State) (ms : List Move), s.sched = .frame :: ms →
    (∀ i rest, decodeFrame s.rxph s.cfg.mtu s.rxd = .ok (i, rest) →
      step s = exec i { s with sched := ms, rxd := rest }) ∧
    (∀ e, s.cfg.Valid → decodeFrame s.rxph s.cfg.mtu s.rxd = .error e → step s = .next { s with sched := ms })

/-- A scheduled operation, an engine's turn, an arriving byte and an empty schedule. Rules R9, R50, R51, R72, R73, R182, R221, R240. The model's own choices or inferences in it: log 3, 7, 8, 11, 28. -/
def Obligations.StepRunsScheduledInstruction : Prop :=
  ∀ (s : State) (ms : List Move),
    (∀ i, fireable s.coupling i = true → s.sched = .fire i :: ms → step s = exec i { s with sched := ms }) ∧
    (∀ i, s.cfg.Valid → fireable s.coupling i = false → s.sched = .fire i :: ms → step s = .next { s with sched := ms }) ∧
    (s.sched = .agent .tx :: ms → step s = exec (txTurn s) { s with sched := ms }) ∧
    (s.sched = .agent .rt :: ms → step s = exec (rtTurn s) { s with sched := ms }) ∧
    (s.coupling = .bridged →
      (s.sched = .agent .bu :: ms → step s = exec (buTurn s) { s with sched := ms }) ∧
      (s.sched = .agent .bd :: ms → step s = exec (bdTurn s) { s with sched := ms })) ∧
    (s.cfg.Valid → s.coupling = .cut → s.sched = .agent .bu :: ms ∨ s.sched = .agent .bd :: ms →
      step s = .next { s with sched := ms }) ∧
    (∀ b, s.cfg.Valid → s.sched = .arrive b :: ms → step s = .next { s with sched := ms, rxd := s.rxd ++ [b] }) ∧
    (s.cfg.Valid → s.sched = [] → step s = .next s)

/-- Words written out from the table's patterns decode to their instructions. Rules R90, R100, R105. The model's own choices or inferences in it: log 13. -/
def Obligations.TableWordsDecode : Prop :=
  decodeTableWord 16 0b1111111100000000 = some .sentinel ∧
    decodeTableWord 16 0b1111111100000011 = some (.dataFrame [0#8, 0#8, 0#8]) ∧
    decodeTableWord 8 0b11111111 = some .start ∧
    decodeTableWord 8 0b00000000 = some .len0 ∧
    decodeByte .hunt 8 0b00010010#8 = .ok (.junk 0x12#8) ∧
    decodeByte .len 8 0b00001000#8 = .ok (.lenok 8#8) ∧
    decodeByte .len 8 0b00001001#8 = .ok (.lenover 9#8) ∧
    decodeByte .data 8 0b11111111#8 = .ok (.data 0xFF#8)

/-- A parameter set that breaks a constraint is refused by every instruction and every step. Rules R8. The model's own choices or inferences in it: log 15. -/
def Obligations.BadParametersAreRefused : Prop :=
  ∀ (s : State), ¬ s.cfg.Valid →
    (∀ i, exec i s = .refused .badParameters) ∧ step s = .refused .badParameters

/-- A byte string of length 0 or above MTU is refused at every input, and by ENCODE_DATA. Rules R231, R180, R190, R197, R120. The model's own choices or inferences in it: log 10, 16. -/
def Obligations.NonPacketsAreRefused : Prop :=
  ∀ (s : State) (p : List Byte), s.cfg.Valid → (p = [] ∨ s.cfg.mtu < p.length) →
    exec (.transportSend p) s = .refused .refusedInput ∧
    exec (.postInbound p) s = .refused .refusedInput ∧
    exec (.submitOutbound p) s = .refused .refusedInput ∧
    exec (.encodeData p) s = .refused .notAPacket

/-- SENTINEL: at a frame boundary it raises sig.PGS and changes nothing else. Rules R94, R125, R131. The model's own choices or inferences in it: log 7. -/
def Obligations.SentinelFrameEffect : Prop :=
  ∀ (s : State), s.cfg.Valid →
    (s.rxph = .hunt → exec .sentinel s = .next { s with sig := { s.sig with pgs := true } }) ∧
    (s.rxph ≠ .hunt → exec .sentinel s = .next s)

/-- DATA_FRAME: the packet of the frame enters TIQ with sig.OWE, or waits in rxbuf. Rules R90, R126, R128, R161. The model's own choices or inferences in it: log 7, 26. -/
def Obligations.DataFrameEffect : Prop :=
  ∀ (s : State) (p : List Byte), s.cfg.Valid → s.rxbuf.length = s.cfg.mtu →
    (s.rxph = .hunt → IsPacket s.cfg p → s.tiq.length < s.cfg.capTiq →
      exec (.dataFrame p) s = .next { s with
        tiq := s.tiq ++ [p], sig := { s.sig with owe := true }
        rxlen := BitVec.ofNat 8 p.length, rxidx := p.length, rxbuf := p ++ s.rxbuf.drop p.length }) ∧
    (s.rxph = .hunt → IsPacket s.cfg p → ¬ s.tiq.length < s.cfg.capTiq →
      exec (.dataFrame p) s = .next { s with
        rxph := .deliver
        rxlen := BitVec.ofNat 8 p.length, rxidx := p.length, rxbuf := p ++ s.rxbuf.drop p.length }) ∧
    (¬ (s.rxph = .hunt ∧ IsPacket s.cfg p) → exec (.dataFrame p) s = .next s)

/-- Each byte class has the effect of its row of R100, in its phase only. Rules R100, R123, R124, R125, R126, R127, R128. The model's own choices or inferences in it: log 6, 8, 26. -/
def Obligations.ByteClassEffects : Prop :=
  ∀ (s : State) (b : Byte), s.cfg.Valid →
    decodeByte .hunt s.cfg.mtu b = .ok (if b = 0xFF#8 then .start else .junk b) ∧
    decodeByte .len s.cfg.mtu b =
      .ok (if b = 0x00#8 then .len0 else if b.toNat ≤ s.cfg.mtu then .lenok b else .lenover b) ∧
    decodeByte .data s.cfg.mtu b = .ok (.data b) ∧
    decodeByte .deliver s.cfg.mtu b = .error .notReady ∧
    (s.rxph = .hunt ∧ b ≠ 0xFF#8 →
      exec (.junk b) s = .next { s with out := s.out ++ [.silent (.framingError b)] }) ∧
    (¬ (s.rxph = .hunt ∧ b ≠ 0xFF#8) → exec (.junk b) s = .next s) ∧
    (s.rxph = .hunt → exec .start s = .next { s with rxph := .len }) ∧
    (s.rxph ≠ .hunt → exec .start s = .next s) ∧
    (s.rxph = .len → exec .len0 s = .next { s with sig := { s.sig with pgs := true }, rxph := .hunt }) ∧
    (s.rxph ≠ .len → exec .len0 s = .next s) ∧
    (s.rxph = .len ∧ 1 ≤ b.toNat ∧ b.toNat ≤ s.cfg.mtu →
      exec (.lenok b) s = .next { s with rxlen := b, rxidx := 0, rxph := .data }) ∧
    (¬ (s.rxph = .len ∧ 1 ≤ b.toNat ∧ b.toNat ≤ s.cfg.mtu) → exec (.lenok b) s = .next s) ∧
    (s.rxph = .len ∧ s.cfg.mtu < b.toNat →
      exec (.lenover b) s = .next { s with out := s.out ++ [.silent (.overlength b)], rxph := .hunt }) ∧
    (¬ (s.rxph = .len ∧ s.cfg.mtu < b.toNat) → exec (.lenover b) s = .next s) ∧
    (s.rxph = .data ∧ s.rxidx < s.rxbuf.length →
      exec (.data b) s = .next { s with
        rxbuf := s.rxbuf.set s.rxidx b, rxidx := s.rxidx + 1
        rxph := if s.rxidx + 1 = s.rxlen.toNat then .deliver else .data }) ∧
    (s.rxph ≠ .data → exec (.data b) s = .next s)

/-- The RX engine's six byte steps take the byte RXD offers, with their effects and nothing else. Rules R123, R124, R125, R126, R127, R128. The model's own choices or inferences in it: log 5, 6. -/
def Obligations.RxByteStepEffects : Prop :=
  ∀ (s : State), s.cfg.Valid →
    (∀ b rest, s.rxd = b :: rest → s.rxph = .hunt → b ≠ 0xFF#8 →
      exec .rxJunk s = .next { s with rxd := rest, out := s.out ++ [.silent (.framingError b)] }) ∧
    ((∀ b rest, s.rxd = b :: rest → ¬ (s.rxph = .hunt ∧ b ≠ 0xFF#8)) → exec .rxJunk s = .next s) ∧
    (∀ b rest, s.rxd = b :: rest → s.rxph = .hunt → b = 0xFF#8 →
      exec .rxStart s = .next { s with rxd := rest, rxph := .len }) ∧
    ((∀ b rest, s.rxd = b :: rest → ¬ (s.rxph = .hunt ∧ b = 0xFF#8)) → exec .rxStart s = .next s) ∧
    (∀ b rest, s.rxd = b :: rest → s.rxph = .len → b = 0x00#8 →
      exec .rxLenSentinel s = .next { s with rxd := rest, sig := { s.sig with pgs := true }, rxph := .hunt }) ∧
    ((∀ b rest, s.rxd = b :: rest → ¬ (s.rxph = .len ∧ b = 0x00#8)) → exec .rxLenSentinel s = .next s) ∧
    (∀ b rest, s.rxd = b :: rest → s.rxph = .len → 1 ≤ b.toNat → b.toNat ≤ s.cfg.mtu →
      exec .rxLenData s = .next { s with rxd := rest, rxlen := b, rxidx := 0, rxph := .data }) ∧
    ((∀ b rest, s.rxd = b :: rest → ¬ (s.rxph = .len ∧ 1 ≤ b.toNat ∧ b.toNat ≤ s.cfg.mtu)) →
      exec .rxLenData s = .next s) ∧
    (∀ b rest, s.rxd = b :: rest → s.rxph = .len → s.cfg.mtu < b.toNat →
      exec .rxLenOver s = .next { s with rxd := rest, out := s.out ++ [.silent (.overlength b)], rxph := .hunt }) ∧
    ((∀ b rest, s.rxd = b :: rest → ¬ (s.rxph = .len ∧ s.cfg.mtu < b.toNat)) → exec .rxLenOver s = .next s) ∧
    (∀ b rest, s.rxd = b :: rest → s.rxph = .data → s.rxidx < s.rxbuf.length →
      exec .rxDataByte s = .next { s with
        rxd := rest, rxbuf := s.rxbuf.set s.rxidx b, rxidx := s.rxidx + 1
        rxph := if s.rxidx + 1 = s.rxlen.toNat then .deliver else .data }) ∧
    (s.rxph ≠ .data ∨ s.rxd = [] → exec .rxDataByte s = .next s)

/-- RX_DELIVER enqueues the packet, raises sig.OWE and hunts, all in one transition. Rules R161, R23. -/
def Obligations.RxDeliverEffect : Prop :=
  ∀ (s : State), s.cfg.Valid →
    (s.rxph = .deliver → s.tiq.length < s.cfg.capTiq → 1 ≤ s.rxlen.toNat → s.rxlen.toNat ≤ s.rxbuf.length →
      exec .rxDeliver s = .next { s with
        tiq := s.tiq ++ [s.rxbuf.take s.rxlen.toNat], sig := { s.sig with owe := true }, rxph := .hunt }) ∧
    (¬ (s.rxph = .deliver ∧ s.tiq.length < s.cfg.capTiq) → exec .rxDeliver s = .next s)

/-- The route fields are the first two bytes of the image, and a shorter image has none. Rules R99. -/
def Obligations.FunctionByteOfImage : Prop :=
  (∀ (d f : Byte) (rest : List Byte), dstOf (d :: f :: rest) = some d ∧ fnOf (d :: f :: rest) = some f) ∧
    (∀ (c : Config) (p : List Byte), p.length < 2 →
      fnOf p = none ∧ dstOf p = none ∧ decodeRoute c (fnOf p) = .routeUnrouted none)

/-- Each function-byte class sends the held packet where R69 says. Rules R69, R101, R192, R193, R194. The model's own choices or inferences in it: log 9, 12, 26. -/
def Obligations.RouteClassEffects : Prop :=
  ∀ (s : State), s.cfg.Valid →
    (∀ p, s.rthold = some p → fnOf p = some s.cfg.fnTest → s.fqTest.length < s.cfg.capFq →
      exec .routeTest s = .next { s with fqTest := s.fqTest ++ [p], rthold := none }) ∧
    ((∀ p, s.rthold = some p → ¬ (fnOf p = some s.cfg.fnTest ∧ s.fqTest.length < s.cfg.capFq)) →
      exec .routeTest s = .next s) ∧
    (∀ p, s.rthold = some p → fnOf p = some s.cfg.fnWifi → s.fqWifi.length < s.cfg.capFq →
      exec .routeWifiCtrl s = .next { s with fqWifi := s.fqWifi ++ [p], rthold := none }) ∧
    ((∀ p, s.rthold = some p → ¬ (fnOf p = some s.cfg.fnWifi ∧ s.fqWifi.length < s.cfg.capFq)) →
      exec .routeWifiCtrl s = .next s) ∧
    (∀ p, s.rthold = some p → fnOf p ≠ some s.cfg.fnTest → fnOf p ≠ some s.cfg.fnWifi →
      exec (.routeUnrouted (fnOf p)) s = .next { s with
        rthold := none, out := s.out ++ [.log p (Config.logText s.fresh)], fresh := s.fresh + 1 }) ∧
    (∀ f, (∀ p, s.rthold = some p → ¬ (fnOf p = f ∧ f ≠ some s.cfg.fnTest ∧ f ≠ some s.cfg.fnWifi)) →
      exec (.routeUnrouted f) s = .next s)

/-- RT_FETCH, RT_ROUTE_TEST, RT_ROUTE_WIFI and RT_DROP. Rules R191, R192, R193, R194. The model's own choices or inferences in it: log 12. -/
def Obligations.DispatcherStepEffects : Prop :=
  ∀ (s : State), s.cfg.Valid →
    (∀ p l, s.rthold = none → s.riq = p :: l → exec .rtFetch s = .next { s with riq := l, rthold := some p }) ∧
    (s.rthold ≠ none ∨ s.riq = [] → exec .rtFetch s = .next s) ∧
    (∀ p, s.rthold = some p → fnOf p = some s.cfg.fnTest → s.fqTest.length < s.cfg.capFq →
      exec .rtRouteTest s = .next { s with fqTest := s.fqTest ++ [p], rthold := none }) ∧
    ((∀ p, s.rthold = some p → ¬ (fnOf p = some s.cfg.fnTest ∧ s.fqTest.length < s.cfg.capFq)) →
      exec .rtRouteTest s = .next s) ∧
    (∀ p, s.rthold = some p → fnOf p = some s.cfg.fnWifi → s.fqWifi.length < s.cfg.capFq →
      exec .rtRouteWifi s = .next { s with fqWifi := s.fqWifi ++ [p], rthold := none }) ∧
    ((∀ p, s.rthold = some p → ¬ (fnOf p = some s.cfg.fnWifi ∧ s.fqWifi.length < s.cfg.capFq)) →
      exec .rtRouteWifi s = .next s) ∧
    (∀ p, s.rthold = some p → fnOf p ≠ some s.cfg.fnTest → fnOf p ≠ some s.cfg.fnWifi →
      exec .rtDrop s = .next { s with
        rthold := none, out := s.out ++ [.log p (Config.logText s.fresh)], fresh := s.fresh + 1 }) ∧
    ((∀ p, s.rthold = some p → ¬ (fnOf p ≠ some s.cfg.fnTest ∧ fnOf p ≠ some s.cfg.fnWifi)) →
      exec .rtDrop s = .next s)

/-- BU_FETCH, BU_POST, BD_FETCH and BD_SEND move one packet and nothing else. Rules R216, R217, R218, R219. -/
def Obligations.BridgeStepEffects : Prop :=
  ∀ (s : State), s.cfg.Valid →
    (∀ p l, s.buhold = none → s.tiq = p :: l → exec .buFetch s = .next { s with tiq := l, buhold := some p }) ∧
    (s.buhold ≠ none ∨ s.tiq = [] → exec .buFetch s = .next s) ∧
    (∀ p, s.buhold = some p → s.riq.length < s.cfg.capRiq →
      exec .buPost s = .next { s with riq := s.riq ++ [p], buhold := none }) ∧
    (s.buhold = none ∨ ¬ s.riq.length < s.cfg.capRiq → exec .buPost s = .next s) ∧
    (∀ p l, s.bdhold = none → s.roq = p :: l → exec .bdFetch s = .next { s with roq := l, bdhold := some p }) ∧
    (s.bdhold ≠ none ∨ s.roq = [] → exec .bdFetch s = .next s) ∧
    (∀ p, s.bdhold = some p → s.teq.length < s.cfg.capTeq →
      exec .bdSend s = .next { s with teq := s.teq ++ [p], sig := { s.sig with hob := true }, bdhold := none }) ∧
    (s.bdhold = none ∨ ¬ s.teq.length < s.cfg.capTeq → exec .bdSend s = .next s)

/-- ENCODE_DATA, ENCODE_SENTINEL and DECODE_NEXT give their results and change nothing else. Rules R120, R121, R122. The model's own choices or inferences in it: log 10. -/
def Obligations.CodecOperationResults : Prop :=
  ∀ (s : State), s.cfg.Valid →
    (∀ p, IsPacket s.cfg p →
      exec (.encodeData p) s = .next { s with out := s.out ++ [.encoded (0xFF#8 :: BitVec.ofNat 8 p.length :: p)] }) ∧
    exec .encodeSentinel s = .next { s with out := s.out ++ [.encoded [0xFF#8, 0x00#8]] } ∧
    (∀ bs, exec (.decodeNext bs) s = .next { s with
      out := s.out ++ (decodeDiscards s.cfg.mtu bs).map .silent ++ [.decoded (decodeNext s.cfg.mtu bs)] })

/-- TRANSPORT_SEND and TRANSPORT_RECEIVE. Rules R180, R181. The model's own choices or inferences in it: log 6. -/
def Obligations.TransportOperationEffects : Prop :=
  ∀ (s : State), s.cfg.Valid →
    (∀ p, IsPacket s.cfg p → s.teq.length < s.cfg.capTeq →
      exec (.transportSend p) s = .next { s with teq := s.teq ++ [p], sig := { s.sig with hob := true } }) ∧
    (∀ p, IsPacket s.cfg p → ¬ s.teq.length < s.cfg.capTeq → exec (.transportSend p) s = .next s) ∧
    (∀ p l, s.tiq = p :: l → exec .transportReceive s = .next { s with tiq := l, out := s.out ++ [.received p] }) ∧
    (s.tiq = [] → exec .transportReceive s = .next s)

/-- POST_INBOUND and NEXT_OUTBOUND. Rules R190, R198. The model's own choices or inferences in it: log 6. -/
def Obligations.RouterInterfaceEffects : Prop :=
  ∀ (s : State), s.cfg.Valid →
    (∀ p, IsPacket s.cfg p → s.riq.length < s.cfg.capRiq →
      exec (.postInbound p) s = .next { s with riq := s.riq ++ [p] }) ∧
    (∀ p, IsPacket s.cfg p → ¬ s.riq.length < s.cfg.capRiq → exec (.postInbound p) s = .next s) ∧
    (∀ p l, s.roq = p :: l → exec .nextOutbound s = .next { s with roq := l, out := s.out ++ [.outbound p] }) ∧
    (s.roq = [] → exec .nextOutbound s = .next s)

/-- RECEIVE_FOR_TEST, RECEIVE_FOR_WIFI_CTRL and SUBMIT_OUTBOUND. Rules R195, R196, R197. The model's own choices or inferences in it: log 6. -/
def Obligations.ConsumerPortEffects : Prop :=
  ∀ (s : State), s.cfg.Valid →
    (∀ p l, s.fqTest = p :: l →
      exec .receiveForTest s = .next { s with fqTest := l, out := s.out ++ [.recvTest p] }) ∧
    (s.fqTest = [] → exec .receiveForTest s = .next s) ∧
    (∀ p l, s.fqWifi = p :: l →
      exec .receiveForWifiCtrl s = .next { s with fqWifi := l, out := s.out ++ [.recvWifi p] }) ∧
    (s.fqWifi = [] → exec .receiveForWifiCtrl s = .next s) ∧
    (∀ p, IsPacket s.cfg p → s.roq.length < s.cfg.capRoq →
      exec (.submitOutbound p) s = .next { s with roq := s.roq ++ [p] }) ∧
    (∀ p, IsPacket s.cfg p → ¬ s.roq.length < s.cfg.capRoq → exec (.submitOutbound p) s = .next s)

/-- SIG_RAISE, SIG_WAIT and SIG_POLL. Rules R141, R142, R143. The model's own choices or inferences in it: log 11. -/
def Obligations.SignalPrimitiveEffects : Prop :=
  ∀ (s : State), s.cfg.Valid →
    exec (.sigRaise .pgs) s = .next { s with sig := { s.sig with pgs := true } } ∧
    exec (.sigRaise .owe) s = .next { s with sig := { s.sig with owe := true } } ∧
    exec (.sigRaise .hob) s = .next { s with sig := { s.sig with hob := true } } ∧
    (∀ m : SigSet, ((m.pgs = true ∧ s.sig.pgs = true) ∨ (m.owe = true ∧ s.sig.owe = true) ∨
        (m.hob = true ∧ s.sig.hob = true)) →
      exec (.sigWait m) s = .next { s with
        sig :=
          { pgs := s.sig.pgs && !m.pgs
            owe := s.sig.owe && !m.owe
            hob := s.sig.hob && !m.hob }
        out := s.out ++ [.reported
          { pgs := s.sig.pgs && m.pgs
            owe := s.sig.owe && m.owe
            hob := s.sig.hob && m.hob }] }) ∧
    (∀ m : SigSet, ¬ (m.pgs = true ∧ s.sig.pgs = true) → ¬ (m.owe = true ∧ s.sig.owe = true) →
        ¬ (m.hob = true ∧ s.sig.hob = true) → exec (.sigWait m) s = .next s) ∧
    exec .sigPoll s = .next { s with out := s.out ++ [.polled s.sig.pgs] }

/-- TICK counts txtimer down in TX_DELAY and TX_SYNC_WAIT only, and stops at 0. Rules R144. -/
def Obligations.TickEffect : Prop :=
  ∀ (s : State), s.cfg.Valid →
    ((s.txph = .delay ∨ s.txph = .syncWait) ∧ 0 < s.txtimer →
      exec .txTick s = .next { s with txtimer := s.txtimer - 1 }) ∧
    (¬ ((s.txph = .delay ∨ s.txph = .syncWait) ∧ 0 < s.txtimer) → exec .txTick s = .next s)

/-- The startup loop: delay, write a sentinel, wait, poll without clearing. Rules R145, R147, R148, R149. -/
def Obligations.StartupStepEffects : Prop :=
  ∀ (s : State), s.cfg.Valid →
    (s.txph = .delay ∧ s.txtimer = 0 →
      exec .txDelayExpire s = .next { s with txout := [0xFF#8, 0x00#8], txph := .syncEmit }) ∧
    (¬ (s.txph = .delay ∧ s.txtimer = 0) → exec .txDelayExpire s = .next s) ∧
    (s.txph = .syncEmit ∧ s.txout = [] →
      exec .txSyncEmitDone s = .next { s with txtimer := s.cfg.tRetry, txph := .syncWait }) ∧
    (¬ (s.txph = .syncEmit ∧ s.txout = []) → exec .txSyncEmitDone s = .next s) ∧
    (s.txph = .syncWait ∧ s.txtimer = 0 ∧ s.sig.pgs = true →
      exec .txSyncPollHit s = .next { s with txph := .check }) ∧
    (¬ (s.txph = .syncWait ∧ s.txtimer = 0 ∧ s.sig.pgs = true) → exec .txSyncPollHit s = .next s) ∧
    (s.txph = .syncWait ∧ s.txtimer = 0 ∧ s.sig.pgs = false →
      exec .txSyncPollMiss s = .next { s with txout := [0xFF#8, 0x00#8], txph := .syncEmit }) ∧
    (¬ (s.txph = .syncWait ∧ s.txtimer = 0 ∧ s.sig.pgs = false) → exec .txSyncPollMiss s = .next s)

/-- TX_EMIT_BYTE hands the first byte of txout to TXD. Rules R146. The model's own choices or inferences in it: log 23. -/
def Obligations.EmitByteEffect : Prop :=
  ∀ (s : State), s.cfg.Valid →
    (∀ b rest, s.txout = b :: rest →
      exec .txEmitByte s = .next { s with txout := rest, out := s.out ++ [.txd b] }) ∧
    (s.txout = [] → exec .txEmitByte s = .next s)

/-- The steady-state loop without a packet: check, sleep, wake, grant. Rules R150, R151, R152, R153, R154. -/
def Obligations.CheckAndIdleStepEffects : Prop :=
  ∀ (s : State), s.cfg.Valid →
    (s.txph = .check ∧ s.teq = [] → exec .txCheckEmpty s = .next { s with txph := .idleWait }) ∧
    (¬ (s.txph = .check ∧ s.teq = []) → exec .txCheckEmpty s = .next s) ∧
    (∀ p l, s.txph = .check → s.teq = p :: l →
      exec .txCheckDeq s = .next { s with teq := l, txhold := some p, txph := .holdWait }) ∧
    (s.txph ≠ .check ∨ s.teq = [] → exec .txCheckDeq s = .next s) ∧
    (s.txph = .idleWait ∧ s.sig.owe = true →
      exec .txIdleWakeGrant s = .next { s with
        sig := { s.sig with owe := false, hob := false }, txout := [0xFF#8, 0x00#8], txph := .idleEmit }) ∧
    (¬ (s.txph = .idleWait ∧ s.sig.owe = true) → exec .txIdleWakeGrant s = .next s) ∧
    (s.txph = .idleWait ∧ s.sig.owe = false ∧ s.sig.hob = true →
      exec .txIdleWakeOutbound s = .next { s with sig := { s.sig with hob := false }, txph := .check }) ∧
    (¬ (s.txph = .idleWait ∧ s.sig.owe = false ∧ s.sig.hob = true) → exec .txIdleWakeOutbound s = .next s) ∧
    (s.txph = .idleEmit ∧ s.txout = [] → exec .txIdleEmitDone s = .next { s with txph := .check }) ∧
    (¬ (s.txph = .idleEmit ∧ s.txout = []) → exec .txIdleEmitDone s = .next s)

/-- The steady-state loop with a packet held: grant, credit, both, send, done. Rules R155, R156, R157, R158, R159, R160. -/
def Obligations.HoldStepEffects : Prop :=
  ∀ (s : State), s.cfg.Valid →
    (s.txph = .holdWait ∧ s.sig.owe = true ∧ s.sig.pgs = false →
      exec .txHoldWakeGrant s = .next { s with
        sig := { s.sig with owe := false }, txout := [0xFF#8, 0x00#8], txgo := false, txph := .grantEmit }) ∧
    (¬ (s.txph = .holdWait ∧ s.sig.owe = true ∧ s.sig.pgs = false) → exec .txHoldWakeGrant s = .next s) ∧
    (s.txph = .holdWait ∧ s.sig.owe = true ∧ s.sig.pgs = true →
      exec .txHoldWakeBoth s = .next { s with
        sig := { s.sig with owe := false, pgs := false }, txout := [0xFF#8, 0x00#8], txgo := true
        txph := .grantEmit }) ∧
    (¬ (s.txph = .holdWait ∧ s.sig.owe = true ∧ s.sig.pgs = true) → exec .txHoldWakeBoth s = .next s) ∧
    (∀ p, s.txhold = some p → s.txph = .holdWait → s.sig.owe = false → s.sig.pgs = true →
      exec .txHoldWakeSend s = .next { s with
        sig := { s.sig with pgs := false }, txout := 0xFF#8 :: BitVec.ofNat 8 p.length :: p, txph := .dataEmit }) ∧
    (¬ (s.txph = .holdWait ∧ s.sig.owe = false ∧ s.sig.pgs = true) ∨ s.txhold = none →
      exec .txHoldWakeSend s = .next s) ∧
    (s.txph = .grantEmit ∧ s.txout = [] ∧ s.txgo = false →
      exec .txGrantEmitDoneBack s = .next { s with txph := .holdWait }) ∧
    (¬ (s.txph = .grantEmit ∧ s.txout = [] ∧ s.txgo = false) → exec .txGrantEmitDoneBack s = .next s) ∧
    (∀ p, s.txhold = some p → s.txph = .grantEmit → s.txout = [] → s.txgo = true →
      exec .txGrantEmitDoneGo s = .next { s with
        txout := 0xFF#8 :: BitVec.ofNat 8 p.length :: p, txgo := false, txph := .dataEmit }) ∧
    (¬ (s.txph = .grantEmit ∧ s.txout = [] ∧ s.txgo = true) ∨ s.txhold = none →
      exec .txGrantEmitDoneGo s = .next s) ∧
    (s.txph = .dataEmit ∧ s.txout = [] → exec .txDataEmitDone s = .next { s with txhold := none, txph := .check }) ∧
    (¬ (s.txph = .dataEmit ∧ s.txout = []) → exec .txDataEmitDone s = .next s)

/-- A TX engine that waits with sig.OWE = 1 writes the sentinel before anything else. Rules R166, R235. The model's own choices or inferences in it: log 25. -/
def Obligations.OwedGrantGoesFirst : Prop :=
  ∀ (s : State), s.cfg.Valid → (s.txph = .idleWait ∨ s.txph = .holdWait) → s.sig.owe = true →
    ∃ t, exec (txTurn s) s = .next t ∧ t.sig.owe = false ∧ t.txout = [0xFF#8, 0x00#8] ∧ t.txhold = s.txhold ∧
      t.teq = s.teq ∧ (s.txph = .holdWait → t.txgo = s.sig.pgs)

/-- Decoding the encoding of a well-formed frame row gives it back, whatever follows. Rules R90, R96, R98, R130. -/
def Obligations.FrameRowsDecodeTheirEncoding : Prop :=
  ∀ (c : Config) (i : Instr) (bs rest : List Byte), c.Valid → WellFormed c i = true → encode c i = some bs →
    (i = .sentinel → decodeFrame .hunt c.mtu (bs ++ rest) = .ok (i, rest) ∧
      decodeNext c.mtu (bs ++ rest) = some (.sentinel, rest)) ∧
    (∀ p, i = .dataFrame p → decodeFrame .hunt c.mtu (bs ++ rest) = .ok (i, rest) ∧
      decodeNext c.mtu (bs ++ rest) = some (.data p, rest))

/-- Every byte falls in exactly one class, and each class decodes from its encoding. Rules R100, R236. -/
def Obligations.ByteRowsDecodeTheirEncoding : Prop :=
  ∀ (c : Config),
    (∀ i ph bs, WellFormed c i = true → bytePhase i = some ph → encode c i = some bs →
      ∃ b, bs = [b] ∧ decodeByte ph c.mtu b = .ok i) ∧
    (∀ ph b i, decodeByte ph c.mtu b = .ok i →
      WellFormed c i = true ∧ bytePhase i = some ph ∧ encode c i = some [b])

/-- Every function byte, or its absence, selects exactly one route row. Rules R69, R101, R236. -/
def Obligations.RouteRowsDecodeTheirEncoding : Prop :=
  ∀ (c : Config), c.Valid →
    (∀ f : Option Byte, WellFormed c (decodeRoute c f) = true ∧ encode c (decodeRoute c f) = some f.toList) ∧
    decodeRoute c (some c.fnTest) = .routeTest ∧ decodeRoute c (some c.fnWifi) = .routeWifiCtrl ∧
    (∀ f, WellFormed c (.routeUnrouted f) = true → decodeRoute c f = .routeUnrouted f)

/-- Garbage without a start marker does not hide the frame behind it. Rules R130, R132. -/
def Obligations.ResynchronisationAfterGarbage : Prop :=
  ∀ (c : Config) (g t : List Byte), c.Valid → (∀ b ∈ g, b ≠ 0xFF#8) →
    decodeNext c.mtu (g ++ (sent ++ t)) = some (.sentinel, t) ∧
    (∀ p, IsPacket c p → decodeNext c.mtu (g ++ (frameOf p ++ t)) = some (.data p, t)) ∧
    decodeNext c.mtu (sent ++ t) = some (.sentinel, t) ∧
    (∀ p, IsPacket c p → decodeNext c.mtu (frameOf p ++ t) = some (.data p, t)) ∧
    frameOf [] = [0xFF#8, 0x00#8] ∧ decodeNext c.mtu (frameOf [] ++ t) = some (.sentinel, t)

/-- Fed byte by byte, the RX engine finds the frame decode_next finds, and consumes the same bytes. Rules R122, R129, R131. The model's own choices or inferences in it: log 3, 5, 6. -/
def Obligations.RxEngineCarriesOutDecodeNext : Prop :=
  ∀ (s : State) (f : Frame) (rest : List Byte), s.cfg.Valid → s.rxph = .hunt → s.rxbuf.length = s.cfg.mtu →
    decodeNext s.cfg.mtu s.rxd = some (f, rest) →
    s.sched = List.replicate (s.rxd.length - rest.length) (.agent .rx) →
    ∃ t, runSteps (s.rxd.length - rest.length) s = .next t ∧
      t = { s with
        rxph := t.rxph, rxlen := t.rxlen, rxidx := t.rxidx, rxbuf := t.rxbuf, sig := t.sig
        rxd := t.rxd, sched := t.sched, out := t.out } ∧
      t.rxd = rest ∧ t.sched = [] ∧ t.tiq = s.tiq ∧ t.out = s.out ++ (decodeDiscards s.cfg.mtu s.rxd).map .silent ∧
      (f = .sentinel → t.rxph = .hunt ∧ t.sig = { s.sig with pgs := true } ∧
        t.rxbuf = s.rxbuf ∧ t.rxlen = s.rxlen ∧ t.rxidx = s.rxidx) ∧
      (∀ p, f = .data p → t.rxph = .deliver ∧ t.sig = s.sig ∧ t.rxlen.toNat = p.length ∧ t.rxidx = p.length ∧
        t.rxbuf.take p.length = p)

/-- Where decode_next blocks, the RX engine consumes every byte and waits for more. Rules R122, R129. The model's own choices or inferences in it: log 3, 5, 6. -/
def Obligations.RxEngineWaitsWhereDecodeNextBlocks : Prop :=
  ∀ (s : State), s.cfg.Valid → s.rxph = .hunt → s.rxbuf.length = s.cfg.mtu →
    decodeNext s.cfg.mtu s.rxd = none → s.sched = List.replicate s.rxd.length (.agent .rx) →
    ∃ t, runSteps s.rxd.length s = .next t ∧
      t = { s with
        rxph := t.rxph, rxlen := t.rxlen, rxidx := t.rxidx, rxbuf := t.rxbuf
        rxd := t.rxd, sched := t.sched, out := t.out } ∧
      t.sched = [] ∧ t.rxd = [] ∧ t.rxph ≠ .deliver ∧ t.sig = s.sig ∧ t.tiq = s.tiq ∧
      t.out = s.out ++ (decodeDiscards s.cfg.mtu s.rxd).map .silent

/-- Every step keeps the invariants of R47 and the range of txtimer. Rules R36, R47. -/
def Obligations.EveryStepKeepsInvariant : Prop :=
  ∀ (s t : State), Inv s → step s = .next t → Inv t

/-- A state that meets the invariants never faults: rxbuf is never indexed outside its MTU bytes. Rules R42, R47, R249. The model's own choices or inferences in it: log 14. -/
def Obligations.StepNeverFaultsUnderInvariant : Prop :=
  ∀ (s : State) (e : Fault), Inv s → step s ≠ .fault e

/-- No step writes a configuration strap, or cuts or joins the halves. Rules R7, R48, R84. The model's own choices or inferences in it: log 28. -/
def Obligations.ConfigurationIsConstant : Prop :=
  ∀ (s t : State), step s = .next t → t.cfg = s.cfg ∧ t.coupling = s.coupling

/-- No instruction puts a packet into or takes one out of FQ_X0 and FQ_X1. Rules R30, R199. -/
def Obligations.InertQueuesAreNeverTouched : Prop :=
  ∀ (s t : State) (i : Instr), exec i s = .next t → t.fqX0 = s.fqX0 ∧ t.fqX1 = s.fqX1

/-- Each internal agent leaves alone the state the ownership table gives to others. Rules R45, R71, R240. -/
def Obligations.AgentsWriteOnlyWhatTheyOwn : Prop :=
  ∀ (s t : State) (i : Instr), exec i s = .next t →
    (rxOwn i = true → t.teq = s.teq ∧ t.riq = s.riq ∧ t.roq = s.roq ∧ t.fqTest = s.fqTest ∧ t.fqWifi = s.fqWifi ∧
      t.txph = s.txph ∧ t.txtimer = s.txtimer ∧ t.txhold = s.txhold ∧ t.txout = s.txout ∧ t.txgo = s.txgo ∧
      t.sig.hob = s.sig.hob ∧ t.rthold = s.rthold ∧ t.buhold = s.buhold ∧ t.bdhold = s.bdhold) ∧
    (txOwn i = true ∨ i = .txTick → t.tiq = s.tiq ∧ t.riq = s.riq ∧ t.roq = s.roq ∧ t.fqTest = s.fqTest ∧
      t.fqWifi = s.fqWifi ∧ t.rxph = s.rxph ∧ t.rxlen = s.rxlen ∧ t.rxidx = s.rxidx ∧ t.rxbuf = s.rxbuf ∧
      t.rxd = s.rxd ∧ t.rthold = s.rthold ∧ t.buhold = s.buhold ∧ t.bdhold = s.bdhold) ∧
    (rtOwn i = true → t.tiq = s.tiq ∧ t.teq = s.teq ∧ t.roq = s.roq ∧ t.sig = s.sig ∧ t.txph = s.txph ∧
      t.txtimer = s.txtimer ∧ t.txhold = s.txhold ∧ t.txout = s.txout ∧ t.txgo = s.txgo ∧ t.rxph = s.rxph ∧
      t.rxlen = s.rxlen ∧ t.rxidx = s.rxidx ∧ t.rxbuf = s.rxbuf ∧ t.rxd = s.rxd ∧ t.buhold = s.buhold ∧
      t.bdhold = s.bdhold) ∧
    (i = .buFetch ∨ i = .buPost → t.teq = s.teq ∧ t.roq = s.roq ∧ t.fqTest = s.fqTest ∧ t.fqWifi = s.fqWifi ∧
      t.sig = s.sig ∧ t.txph = s.txph ∧
      t.txtimer = s.txtimer ∧ t.txhold = s.txhold ∧ t.txout = s.txout ∧ t.txgo = s.txgo ∧ t.rxph = s.rxph ∧
      t.rxlen = s.rxlen ∧ t.rxidx = s.rxidx ∧ t.rxbuf = s.rxbuf ∧ t.rxd = s.rxd ∧ t.rthold = s.rthold ∧
      t.bdhold = s.bdhold ∧ t.out = s.out) ∧
    (i = .bdFetch ∨ i = .bdSend → t.tiq = s.tiq ∧ t.riq = s.riq ∧ t.fqTest = s.fqTest ∧ t.fqWifi = s.fqWifi ∧
      t.sig.pgs = s.sig.pgs ∧ t.sig.owe = s.sig.owe ∧ t.txph = s.txph ∧
      t.txtimer = s.txtimer ∧ t.txhold = s.txhold ∧ t.txout = s.txout ∧ t.txgo = s.txgo ∧ t.rxph = s.rxph ∧
      t.rxlen = s.rxlen ∧ t.rxidx = s.rxidx ∧ t.rxbuf = s.rxbuf ∧ t.rxd = s.rxd ∧ t.rthold = s.rthold ∧
      t.buhold = s.buhold ∧ t.out = s.out)

/-- The TX phase changes only along R163's edges, and in each phase at most one own rule is enabled. Rules R163. -/
def Obligations.TxPhaseGraph : Prop :=
  (∀ (c : Config) (len : Byte) (idx : Nat) (buf line : List Byte) (moves : List Move) (n : Nat),
      (State.resetTo c len idx buf line moves n).txph = .delay) ∧
    (∀ (s t : State) (i : Instr), exec i s = .next t → t.txph = s.txph ∨ txEdge s i s.txph t.txph) ∧
    (∀ (s : State) (i : Instr), s.cfg.Valid → OutMatchesPhase s → txOwn i = true → exec i s ≠ .next s → i = txTurn s)

/-- The only way out of startup is a poll that finds sig.PGS = 1, and there is no way back. Rules R148, R163. -/
def Obligations.StartupEndsOnlyByPollHit : Prop :=
  ∀ (s t : State) (i : Instr), exec i s = .next t →
    (inStartup s.txph = true → inStartup t.txph = false →
      i = .txSyncPollHit ∧ s.txph = .syncWait ∧ s.txtimer = 0 ∧ s.sig.pgs = true ∧ t = { s with txph := .check }) ∧
    (inStartup s.txph = false → inStartup t.txph = false)

/-- While a frame is being written nothing else reaches the line and the phase does not change. Rules R67, R146, R235. -/
def Obligations.FrameBeingWrittenIsNotInterrupted : Prop :=
  ∀ (s t : State) (i : Instr) (b : Byte) (rest : List Byte), OutMatchesPhase s → s.txout = b :: rest →
    exec i s = .next t →
    t.txph = s.txph ∧ t.txhold = s.txhold ∧
    ((t.txout = s.txout ∧ txdBytes t.out = txdBytes s.out) ∨
      (i = .txEmitByte ∧ t.txout = rest ∧ txdBytes t.out = txdBytes s.out ++ [b]))

/-- Along every run, data frames begun and credits in hand never exceed sentinels heard. Rules R78, R156, R157, R165. The model's own choices or inferences in it: log 11. -/
def Obligations.OneDataFramePerCredit : Prop :=
  ∀ (is : List Instr) (s t : State), (∀ i ∈ is, ∀ x, i ≠ .sigRaise x) → execAll is s = .next t →
    sumAlong (fun _ => dataBegun) is s + credits t ≤ credits s + sumAlong (fun i s _ => heardBy i s) is s ∧
    (∀ c len idx buf line moves n, s = State.resetTo c len idx buf line moves n →
      sumAlong (fun _ => dataBegun) is s ≤ sumAlong (fun i s _ => heardBy i s) is s)

/-- Along every run, steady-state sentinels begun never exceed the data frames TIQ has accepted. Rules R161, R168. The model's own choices or inferences in it: log 11. -/
def Obligations.OneGrantPerAcceptedFrame : Prop :=
  ∀ (is : List Instr) (s t : State), (∀ i ∈ is, ∀ x, i ≠ .sigRaise x) → execAll is s = .next t →
    sumAlong (fun _ => grantBegun) is s + t.sig.owe.toNat ≤
      s.sig.owe.toNat + sumAlong (fun i s _ => (deliveredBy i s).length) is s ∧
    (∀ c len idx buf line moves n, s = State.resetTo c len idx buf line moves n →
      sumAlong (fun _ => grantBegun) is s ≤ sumAlong (fun i s _ => (deliveredBy i s).length) is s)

/-- Nothing is written before T_INIT ticks, and the first two bytes ever written are FF 00. Rules R145, R263. -/
def Obligations.SentinelComesFirstAfterReset : Prop :=
  ∀ (is : List Instr) (c : Config) (len : Byte) (idx : Nat) (buf line : List Byte) (moves : List Move) (n : Nat)
      (t : State), execAll is (State.resetTo c len idx buf line moves n) = .next t →
    (is.count .txTick < c.tInit → txdBytes t.out = []) ∧
    (txdBytes t.out = [] ∨ txdBytes t.out = [0xFF#8] ∨ ∃ rest, txdBytes t.out = 0xFF#8 :: 0x00#8 :: rest)

/-- Inbound packets are neither lost, duplicated nor reordered on their way to their consumer. Rules R54, R74, R76, R77. -/
def Obligations.InboundPacketsKeepOrderAndCount : Prop :=
  ∀ (s t : State) (i : Instr), ofBlock i = true → exec i s = .next t →
    testFlow t = testFlow s ++ (deliveredBy i s).filter (hasCode s.cfg.fnTest) ∧
    wifiFlow t = wifiFlow s ++ (deliveredBy i s).filter (hasCode s.cfg.fnWifi) ∧
    dropFlow t = dropFlow s ++ (deliveredBy i s).filter (fun p => decide (Unrouted s.cfg (fnOf p)))

/-- Outbound packets are written to TXD in submission order, each exactly once. Rules R54, R74, R77. -/
def Obligations.OutboundPacketsKeepOrderAndCount : Prop :=
  (∀ (c : Config) (len : Byte) (idx : Nat) (buf line : List Byte) (moves : List Move) (n : Nat),
      OutboundAccount [] (State.resetTo c len idx buf line moves n)) ∧
    (∀ (ps : List Packet) (s t : State) (i : Instr), Inv s → OutboundAccount ps s → ofBlock i = true →
      exec i s = .next t → OutboundAccount (ps ++ submittedBy i s) t)

/-- While the held packet's queue is full no dispatcher row is enabled and the packet stays held. Rules R76, R200. The model's own choices or inferences in it: log 4. -/
def Obligations.HeadOfLineBlocking : Prop :=
  ∀ (s : State) (p : Packet), s.cfg.Valid → s.rthold = some p →
    ((fnOf p = some s.cfg.fnTest ∧ ¬ s.fqTest.length < s.cfg.capFq) ∨
      (fnOf p = some s.cfg.fnWifi ∧ ¬ s.fqWifi.length < s.cfg.capFq)) →
    (∀ i, rtOwn i = true → exec i s = .next s) ∧
    (∀ i t, exec i s = .next t → t.rthold = some p ∧ s.riq <+: t.riq ∧
      (fnOf p = some s.cfg.fnTest → i ≠ .receiveForTest → t.fqTest = s.fqTest) ∧
      (fnOf p = some s.cfg.fnWifi → i ≠ .receiveForWifiCtrl → t.fqWifi = s.fqWifi))

/-- Test, wireless-control, test, unknown: two on test in order, one on wireless-control, one dropped. Rules R191, R192, R193, R194, R201. The model's own choices or inferences in it: log 3, 12. -/
def Obligations.RouterFanOut : Prop :=
  ∀ (s : State) (t1 w1 t2 u : Packet), s.cfg.Valid → 2 ≤ s.cfg.capFq → s.rthold = none →
    s.fqTest = [] → s.fqWifi = [] → s.fqX0 = [] → s.fqX1 = [] → s.riq = [t1, w1, t2, u] →
    fnOf t1 = some s.cfg.fnTest → fnOf w1 = some s.cfg.fnWifi → fnOf t2 = some s.cfg.fnTest →
    fnOf u ≠ some s.cfg.fnTest → fnOf u ≠ some s.cfg.fnWifi →
    s.sched = List.replicate 8 (.agent .rt) →
    ∃ t, runSteps 8 s = .next t ∧ t.fqTest = [t1, t2] ∧ t.fqWifi = [w1] ∧ t.fqX0 = [] ∧ t.fqX1 = [] ∧
      t.riq = [] ∧ t.rthold = none ∧ t.out = s.out ++ [.log u (Config.logText s.fresh)]

/-- A packet in TEQ while the TX engine sleeps always has its wake-up raised. Rules R150, R180, R281. The model's own choices or inferences in it: log 11. -/
def Obligations.NoOutboundPacketSleeps : Prop :=
  (∀ (c : Config) (len : Byte) (idx : Nat) (buf line : List Byte) (moves : List Move) (n : Nat),
      let s := State.resetTo c len idx buf line moves n
      s.txph = .idleWait → s.teq ≠ [] → s.sig.hob = true) ∧
    (∀ (s t : State) (i : Instr), (s.txph = .idleWait → s.teq ≠ [] → s.sig.hob = true) →
      (∀ m, i ≠ .sigWait m) → exec i s = .next t → t.txph = .idleWait → t.teq ≠ [] → t.sig.hob = true)

/-- Waiting for a credit that does not come, the TX engine holds its packet and writes no data frame. Rules R167, R230. The model's own choices or inferences in it: log 11. -/
def Obligations.LostGrantStallsForEver : Prop :=
  ∀ (s t : State) (i : Instr) (p : Packet), s.txph = .holdWait → s.txhold = some p → s.txout = [] →
    s.sig.pgs = false → s.sig.owe = false → heardBy i s = 0 → deliveredBy i s = [] → (∀ x, i ≠ .sigRaise x) →
    exec i s = .next t →
    t.txph = .holdWait ∧ t.txhold = some p ∧ t.txout = [] ∧ t.sig.pgs = false ∧ t.sig.owe = false ∧
      txdBytes t.out = txdBytes s.out

/-- The dispatcher's turn is fetch or the held packet's row, and each bridge's turn is fetch or pass. Rules R43, R44, R51, R69, R73, R221. The model's own choices or inferences in it: log 3, 9, 25, 28. -/
def Obligations.EngineTurnsFollowTheirLatches : Prop :=
  ∀ (s : State) (ms : List Move),
    (s.sched = .agent .rt :: ms →
      (s.rthold = none → step s = exec .rtFetch { s with sched := ms }) ∧
      (∀ p, s.rthold = some p →
        (fnOf p = some s.cfg.fnTest → step s = exec .routeTest { s with sched := ms }) ∧
        (fnOf p ≠ some s.cfg.fnTest → fnOf p = some s.cfg.fnWifi → step s = exec .routeWifiCtrl { s with sched := ms }) ∧
        (fnOf p ≠ some s.cfg.fnTest → fnOf p ≠ some s.cfg.fnWifi →
          step s = exec (.routeUnrouted (fnOf p)) { s with sched := ms }))) ∧
    (s.coupling = .bridged → s.sched = .agent .bu :: ms →
      (s.buhold = none → step s = exec .buFetch { s with sched := ms }) ∧
      (s.buhold ≠ none → step s = exec .buPost { s with sched := ms })) ∧
    (s.coupling = .bridged → s.sched = .agent .bd :: ms →
      (s.bdhold = none → step s = exec .bdFetch { s with sched := ms }) ∧
      (s.bdhold ≠ none → step s = exec .bdSend { s with sched := ms })) ∧
    (s.cfg.Valid → s.coupling = .cut → s.sched = .agent .bu :: ms ∨ s.sched = .agent .bd :: ms →
      step s = .next { s with sched := ms })

/-- No operation that is called from outside reads the engines' state, and none writes it but for SEND's own raise. Rules R180, R182. The model's own choices or inferences in it: log 6. -/
def Obligations.OperationsNeitherReadNorWriteTheEngines : Prop :=
  ∀ (s t : State) (i : Instr), callable i = true → exec i s = .next t →
    (t.txph = s.txph ∧ t.txtimer = s.txtimer ∧ t.txhold = s.txhold ∧ t.txout = s.txout ∧ t.txgo = s.txgo ∧
      t.rxph = s.rxph ∧ t.rxlen = s.rxlen ∧ t.rxidx = s.rxidx ∧ t.rxbuf = s.rxbuf ∧ t.rxd = s.rxd ∧
      t.sig.pgs = s.sig.pgs ∧ t.sig.owe = s.sig.owe ∧
      (t.sig.hob = s.sig.hob ∨ (∃ p, i = .transportSend p ∧ t.sig.hob = true))) ∧
    (∀ (g : Sig) (a : TxPhase) (n : Nat) (h : Option Packet) (o : List Byte) (x : Bool) (r : RxPhase) (l : Byte)
        (k : Nat) (b w : List Byte),
      ∃ u, exec i { s with
          sig := g, txph := a, txtimer := n, txhold := h, txout := o, txgo := x
          rxph := r, rxlen := l, rxidx := k, rxbuf := b, rxd := w } = .next u ∧
        u.out = t.out ∧ ∀ q, u.queue q = t.queue q)

/-- Every transition keeps: no byte before T_INIT ticks, then the sentinel first. Rules R36, R145, R263. -/
def Obligations.FirstSentinelIsKept : Prop :=
  (∀ (c : Config) (len : Byte) (idx : Nat) (buf line : List Byte) (moves : List Move) (n : Nat),
      FirstSentinel 0 (State.resetTo c len idx buf line moves n)) ∧
    (∀ (k : Nat) (s t : State) (i : Instr), FirstSentinel k s → exec i s = .next t →
      FirstSentinel (if i = .txTick then k + 1 else k) t)

/-- In the composed block an outside move writes nothing but what its port gives it. Rules R50, R51, R221, R240. The model's own choices or inferences in it: log 3, 5, 6, 28. -/
def Obligations.OutsidersReachOnlyThePorts : Prop :=
  ∀ (s t : State) (ms : List Move), s.coupling = .bridged → step s = .next t →
    (∀ b, s.sched = .arrive b :: ms → t = { s with sched := ms, rxd := s.rxd ++ [b] }) ∧
    (s.sched = .fire .txTick :: ms → ∃ n, t = { s with sched := ms, txtimer := n }) ∧
    (∀ p, s.sched = .fire (.submitOutbound p) :: ms →
      t = { s with sched := ms } ∨ t = { s with sched := ms, roq := s.roq ++ [p] }) ∧
    (s.sched = .fire .receiveForTest :: ms → t = { s with sched := ms } ∨
      ∃ p l, s.fqTest = p :: l ∧ t = { s with sched := ms, fqTest := l, out := s.out ++ [.recvTest p] }) ∧
    (s.sched = .fire .receiveForWifiCtrl :: ms → t = { s with sched := ms } ∨
      ∃ p l, s.fqWifi = p :: l ∧ t = { s with sched := ms, fqWifi := l, out := s.out ++ [.recvWifi p] }) ∧
    (∀ i, s.sched = .fire i :: ms →
      (ofBlock i = false ∨ ∃ p b, i ∈ [.sentinel, .dataFrame p, .junk b, .start, .len0, .lenok b, .lenover b, .data b]) →
      t = { s with sched := ms })

/-- No step reorders or invents the bytes that wait at RXD. Rules R50, R52, R53, R247. The model's own choices or inferences in it: log 3, 5, 7, 27. -/
def Obligations.WaitingBytesAreTakenInOrder : Prop :=
  ∀ (s t : State), step s = .next t →
    ∃ taken added, s.rxd ++ added = taken ++ t.rxd ∧
      (added ≠ [] → taken = [] ∧ ∃ b ms, added = [b] ∧ s.sched = .arrive b :: ms) ∧
      (taken ≠ [] → ∃ m ms, s.sched = m :: ms ∧
        (m = .frame ∨ taken.length = 1 ∧ (m = .agent .rx ∨ ∃ i, m = .fire i ∧ rxOwn i = true)))

/-- With the halves cut at the bridges no step reaches both. Rules R183, R198, R221. The model's own choices or inferences in it: log 28. -/
def Obligations.CutHalvesShareNothing : Prop :=
  ∀ (s t : State), s.coupling = .cut → (∀ ms, s.sched ≠ .reset :: ms) → step s = .next t →
    t.buhold = s.buhold ∧ t.bdhold = s.bdhold ∧
    ((t.tiq = s.tiq ∧ t.teq = s.teq ∧ t.sig = s.sig ∧ t.txph = s.txph ∧ t.txtimer = s.txtimer ∧ t.txhold = s.txhold ∧
        t.txout = s.txout ∧ t.txgo = s.txgo ∧ t.rxph = s.rxph ∧ t.rxlen = s.rxlen ∧ t.rxidx = s.rxidx ∧
        t.rxbuf = s.rxbuf ∧ t.rxd = s.rxd) ∨
      (t.riq = s.riq ∧ t.roq = s.roq ∧ t.fqTest = s.fqTest ∧ t.fqWifi = s.fqWifi ∧ t.fqX0 = s.fqX0 ∧ t.fqX1 = s.fqX1 ∧
        t.rthold = s.rthold))
end

