-- ==== Sys2Proof/Laws/State.lean ====
section
/-! SUPPORT. One lemma per field per named update of the state, so that no later proof unfolds a record update. -/

namespace Sys2Proof.Machine

open Sys2Proof

/-! ### `State.raise` -/

@[simp] theorem State.raise_cfg (s : State) (x : SigBit) : (s.raise x).cfg = s.cfg := rfl
@[simp] theorem State.raise_tiq (s : State) (x : SigBit) : (s.raise x).tiq = s.tiq := rfl
@[simp] theorem State.raise_teq (s : State) (x : SigBit) : (s.raise x).teq = s.teq := rfl
@[simp] theorem State.raise_riq (s : State) (x : SigBit) : (s.raise x).riq = s.riq := rfl
@[simp] theorem State.raise_roq (s : State) (x : SigBit) : (s.raise x).roq = s.roq := rfl
@[simp] theorem State.raise_fqTest (s : State) (x : SigBit) : (s.raise x).fqTest = s.fqTest := rfl
@[simp] theorem State.raise_fqWifi (s : State) (x : SigBit) : (s.raise x).fqWifi = s.fqWifi := rfl
@[simp] theorem State.raise_fqX0 (s : State) (x : SigBit) : (s.raise x).fqX0 = s.fqX0 := rfl
@[simp] theorem State.raise_fqX1 (s : State) (x : SigBit) : (s.raise x).fqX1 = s.fqX1 := rfl
@[simp] theorem State.raise_sig (s : State) (x : SigBit) : (s.raise x).sig = s.sig.raise x := rfl
@[simp] theorem State.raise_txph (s : State) (x : SigBit) : (s.raise x).txph = s.txph := rfl
@[simp] theorem State.raise_txtimer (s : State) (x : SigBit) : (s.raise x).txtimer = s.txtimer := rfl
@[simp] theorem State.raise_txhold (s : State) (x : SigBit) : (s.raise x).txhold = s.txhold := rfl
@[simp] theorem State.raise_txout (s : State) (x : SigBit) : (s.raise x).txout = s.txout := rfl
@[simp] theorem State.raise_txgo (s : State) (x : SigBit) : (s.raise x).txgo = s.txgo := rfl
@[simp] theorem State.raise_rxph (s : State) (x : SigBit) : (s.raise x).rxph = s.rxph := rfl
@[simp] theorem State.raise_rxlen (s : State) (x : SigBit) : (s.raise x).rxlen = s.rxlen := rfl
@[simp] theorem State.raise_rxidx (s : State) (x : SigBit) : (s.raise x).rxidx = s.rxidx := rfl
@[simp] theorem State.raise_rxbuf (s : State) (x : SigBit) : (s.raise x).rxbuf = s.rxbuf := rfl
@[simp] theorem State.raise_rthold (s : State) (x : SigBit) : (s.raise x).rthold = s.rthold := rfl
@[simp] theorem State.raise_buhold (s : State) (x : SigBit) : (s.raise x).buhold = s.buhold := rfl
@[simp] theorem State.raise_bdhold (s : State) (x : SigBit) : (s.raise x).bdhold = s.bdhold := rfl
@[simp] theorem State.raise_rxd (s : State) (x : SigBit) : (s.raise x).rxd = s.rxd := rfl
@[simp] theorem State.raise_sched (s : State) (x : SigBit) : (s.raise x).sched = s.sched := rfl
@[simp] theorem State.raise_out (s : State) (x : SigBit) : (s.raise x).out = s.out := rfl
@[simp] theorem State.raise_fresh (s : State) (x : SigBit) : (s.raise x).fresh = s.fresh := rfl
@[simp] theorem State.raise_coupling (s : State) (x : SigBit) : (s.raise x).coupling = s.coupling := rfl

@[simp] theorem State.raise_queue (s : State) (x : SigBit) (q : QueueId) : (s.raise x).queue q = s.queue q := by
  cases q <;> rfl

/-! ### `State.waited` -/

@[simp] theorem State.waited_cfg (s : State) (m : SigSet) : (s.waited m).cfg = s.cfg := rfl
@[simp] theorem State.waited_tiq (s : State) (m : SigSet) : (s.waited m).tiq = s.tiq := rfl
@[simp] theorem State.waited_teq (s : State) (m : SigSet) : (s.waited m).teq = s.teq := rfl
@[simp] theorem State.waited_riq (s : State) (m : SigSet) : (s.waited m).riq = s.riq := rfl
@[simp] theorem State.waited_roq (s : State) (m : SigSet) : (s.waited m).roq = s.roq := rfl
@[simp] theorem State.waited_fqTest (s : State) (m : SigSet) : (s.waited m).fqTest = s.fqTest := rfl
@[simp] theorem State.waited_fqWifi (s : State) (m : SigSet) : (s.waited m).fqWifi = s.fqWifi := rfl
@[simp] theorem State.waited_fqX0 (s : State) (m : SigSet) : (s.waited m).fqX0 = s.fqX0 := rfl
@[simp] theorem State.waited_fqX1 (s : State) (m : SigSet) : (s.waited m).fqX1 = s.fqX1 := rfl
@[simp] theorem State.waited_sig (s : State) (m : SigSet) : (s.waited m).sig = s.sig.clear (s.sig.reported m) := rfl
@[simp] theorem State.waited_txph (s : State) (m : SigSet) : (s.waited m).txph = s.txph := rfl
@[simp] theorem State.waited_txtimer (s : State) (m : SigSet) : (s.waited m).txtimer = s.txtimer := rfl
@[simp] theorem State.waited_txhold (s : State) (m : SigSet) : (s.waited m).txhold = s.txhold := rfl
@[simp] theorem State.waited_txout (s : State) (m : SigSet) : (s.waited m).txout = s.txout := rfl
@[simp] theorem State.waited_txgo (s : State) (m : SigSet) : (s.waited m).txgo = s.txgo := rfl
@[simp] theorem State.waited_rxph (s : State) (m : SigSet) : (s.waited m).rxph = s.rxph := rfl
@[simp] theorem State.waited_rxlen (s : State) (m : SigSet) : (s.waited m).rxlen = s.rxlen := rfl
@[simp] theorem State.waited_rxidx (s : State) (m : SigSet) : (s.waited m).rxidx = s.rxidx := rfl
@[simp] theorem State.waited_rxbuf (s : State) (m : SigSet) : (s.waited m).rxbuf = s.rxbuf := rfl
@[simp] theorem State.waited_rthold (s : State) (m : SigSet) : (s.waited m).rthold = s.rthold := rfl
@[simp] theorem State.waited_buhold (s : State) (m : SigSet) : (s.waited m).buhold = s.buhold := rfl
@[simp] theorem State.waited_bdhold (s : State) (m : SigSet) : (s.waited m).bdhold = s.bdhold := rfl
@[simp] theorem State.waited_rxd (s : State) (m : SigSet) : (s.waited m).rxd = s.rxd := rfl
@[simp] theorem State.waited_sched (s : State) (m : SigSet) : (s.waited m).sched = s.sched := rfl
@[simp] theorem State.waited_out (s : State) (m : SigSet) : (s.waited m).out = s.out := rfl
@[simp] theorem State.waited_fresh (s : State) (m : SigSet) : (s.waited m).fresh = s.fresh := rfl
@[simp] theorem State.waited_coupling (s : State) (m : SigSet) : (s.waited m).coupling = s.coupling := rfl

@[simp] theorem State.waited_queue (s : State) (m : SigSet) (q : QueueId) : (s.waited m).queue q = s.queue q := by
  cases q <;> rfl

/-! ### `State.emit` -/

@[simp] theorem State.emit_cfg (s : State) (o : Output) : (s.emit o).cfg = s.cfg := rfl
@[simp] theorem State.emit_tiq (s : State) (o : Output) : (s.emit o).tiq = s.tiq := rfl
@[simp] theorem State.emit_teq (s : State) (o : Output) : (s.emit o).teq = s.teq := rfl
@[simp] theorem State.emit_riq (s : State) (o : Output) : (s.emit o).riq = s.riq := rfl
@[simp] theorem State.emit_roq (s : State) (o : Output) : (s.emit o).roq = s.roq := rfl
@[simp] theorem State.emit_fqTest (s : State) (o : Output) : (s.emit o).fqTest = s.fqTest := rfl
@[simp] theorem State.emit_fqWifi (s : State) (o : Output) : (s.emit o).fqWifi = s.fqWifi := rfl
@[simp] theorem State.emit_fqX0 (s : State) (o : Output) : (s.emit o).fqX0 = s.fqX0 := rfl
@[simp] theorem State.emit_fqX1 (s : State) (o : Output) : (s.emit o).fqX1 = s.fqX1 := rfl
@[simp] theorem State.emit_sig (s : State) (o : Output) : (s.emit o).sig = s.sig := rfl
@[simp] theorem State.emit_txph (s : State) (o : Output) : (s.emit o).txph = s.txph := rfl
@[simp] theorem State.emit_txtimer (s : State) (o : Output) : (s.emit o).txtimer = s.txtimer := rfl
@[simp] theorem State.emit_txhold (s : State) (o : Output) : (s.emit o).txhold = s.txhold := rfl
@[simp] theorem State.emit_txout (s : State) (o : Output) : (s.emit o).txout = s.txout := rfl
@[simp] theorem State.emit_txgo (s : State) (o : Output) : (s.emit o).txgo = s.txgo := rfl
@[simp] theorem State.emit_rxph (s : State) (o : Output) : (s.emit o).rxph = s.rxph := rfl
@[simp] theorem State.emit_rxlen (s : State) (o : Output) : (s.emit o).rxlen = s.rxlen := rfl
@[simp] theorem State.emit_rxidx (s : State) (o : Output) : (s.emit o).rxidx = s.rxidx := rfl
@[simp] theorem State.emit_rxbuf (s : State) (o : Output) : (s.emit o).rxbuf = s.rxbuf := rfl
@[simp] theorem State.emit_rthold (s : State) (o : Output) : (s.emit o).rthold = s.rthold := rfl
@[simp] theorem State.emit_buhold (s : State) (o : Output) : (s.emit o).buhold = s.buhold := rfl
@[simp] theorem State.emit_bdhold (s : State) (o : Output) : (s.emit o).bdhold = s.bdhold := rfl
@[simp] theorem State.emit_rxd (s : State) (o : Output) : (s.emit o).rxd = s.rxd := rfl
@[simp] theorem State.emit_sched (s : State) (o : Output) : (s.emit o).sched = s.sched := rfl
@[simp] theorem State.emit_out (s : State) (o : Output) : (s.emit o).out = s.out ++ [o] := rfl
@[simp] theorem State.emit_fresh (s : State) (o : Output) : (s.emit o).fresh = s.fresh := rfl
@[simp] theorem State.emit_coupling (s : State) (o : Output) : (s.emit o).coupling = s.coupling := rfl

@[simp] theorem State.emit_queue (s : State) (o : Output) (q : QueueId) : (s.emit o).queue q = s.queue q := by
  cases q <;> rfl

/-! ### `State.emitAll` -/

@[simp] theorem State.emitAll_cfg (s : State) (os : List Output) : (s.emitAll os).cfg = s.cfg := rfl
@[simp] theorem State.emitAll_tiq (s : State) (os : List Output) : (s.emitAll os).tiq = s.tiq := rfl
@[simp] theorem State.emitAll_teq (s : State) (os : List Output) : (s.emitAll os).teq = s.teq := rfl
@[simp] theorem State.emitAll_riq (s : State) (os : List Output) : (s.emitAll os).riq = s.riq := rfl
@[simp] theorem State.emitAll_roq (s : State) (os : List Output) : (s.emitAll os).roq = s.roq := rfl
@[simp] theorem State.emitAll_fqTest (s : State) (os : List Output) : (s.emitAll os).fqTest = s.fqTest := rfl
@[simp] theorem State.emitAll_fqWifi (s : State) (os : List Output) : (s.emitAll os).fqWifi = s.fqWifi := rfl
@[simp] theorem State.emitAll_fqX0 (s : State) (os : List Output) : (s.emitAll os).fqX0 = s.fqX0 := rfl
@[simp] theorem State.emitAll_fqX1 (s : State) (os : List Output) : (s.emitAll os).fqX1 = s.fqX1 := rfl
@[simp] theorem State.emitAll_sig (s : State) (os : List Output) : (s.emitAll os).sig = s.sig := rfl
@[simp] theorem State.emitAll_txph (s : State) (os : List Output) : (s.emitAll os).txph = s.txph := rfl
@[simp] theorem State.emitAll_txtimer (s : State) (os : List Output) : (s.emitAll os).txtimer = s.txtimer := rfl
@[simp] theorem State.emitAll_txhold (s : State) (os : List Output) : (s.emitAll os).txhold = s.txhold := rfl
@[simp] theorem State.emitAll_txout (s : State) (os : List Output) : (s.emitAll os).txout = s.txout := rfl
@[simp] theorem State.emitAll_txgo (s : State) (os : List Output) : (s.emitAll os).txgo = s.txgo := rfl
@[simp] theorem State.emitAll_rxph (s : State) (os : List Output) : (s.emitAll os).rxph = s.rxph := rfl
@[simp] theorem State.emitAll_rxlen (s : State) (os : List Output) : (s.emitAll os).rxlen = s.rxlen := rfl
@[simp] theorem State.emitAll_rxidx (s : State) (os : List Output) : (s.emitAll os).rxidx = s.rxidx := rfl
@[simp] theorem State.emitAll_rxbuf (s : State) (os : List Output) : (s.emitAll os).rxbuf = s.rxbuf := rfl
@[simp] theorem State.emitAll_rthold (s : State) (os : List Output) : (s.emitAll os).rthold = s.rthold := rfl
@[simp] theorem State.emitAll_buhold (s : State) (os : List Output) : (s.emitAll os).buhold = s.buhold := rfl
@[simp] theorem State.emitAll_bdhold (s : State) (os : List Output) : (s.emitAll os).bdhold = s.bdhold := rfl
@[simp] theorem State.emitAll_rxd (s : State) (os : List Output) : (s.emitAll os).rxd = s.rxd := rfl
@[simp] theorem State.emitAll_sched (s : State) (os : List Output) : (s.emitAll os).sched = s.sched := rfl
@[simp] theorem State.emitAll_out (s : State) (os : List Output) : (s.emitAll os).out = s.out ++ os := rfl
@[simp] theorem State.emitAll_fresh (s : State) (os : List Output) : (s.emitAll os).fresh = s.fresh := rfl
@[simp] theorem State.emitAll_coupling (s : State) (os : List Output) : (s.emitAll os).coupling = s.coupling := rfl

@[simp] theorem State.emitAll_queue (s : State) (os : List Output) (q : QueueId) : (s.emitAll os).queue q = s.queue q := by
  cases q <;> rfl

/-! ### `State.logDrop` -/

@[simp] theorem State.logDrop_cfg (s : State) (p : Packet) : (s.logDrop p).cfg = s.cfg := rfl
@[simp] theorem State.logDrop_tiq (s : State) (p : Packet) : (s.logDrop p).tiq = s.tiq := rfl
@[simp] theorem State.logDrop_teq (s : State) (p : Packet) : (s.logDrop p).teq = s.teq := rfl
@[simp] theorem State.logDrop_riq (s : State) (p : Packet) : (s.logDrop p).riq = s.riq := rfl
@[simp] theorem State.logDrop_roq (s : State) (p : Packet) : (s.logDrop p).roq = s.roq := rfl
@[simp] theorem State.logDrop_fqTest (s : State) (p : Packet) : (s.logDrop p).fqTest = s.fqTest := rfl
@[simp] theorem State.logDrop_fqWifi (s : State) (p : Packet) : (s.logDrop p).fqWifi = s.fqWifi := rfl
@[simp] theorem State.logDrop_fqX0 (s : State) (p : Packet) : (s.logDrop p).fqX0 = s.fqX0 := rfl
@[simp] theorem State.logDrop_fqX1 (s : State) (p : Packet) : (s.logDrop p).fqX1 = s.fqX1 := rfl
@[simp] theorem State.logDrop_sig (s : State) (p : Packet) : (s.logDrop p).sig = s.sig := rfl
@[simp] theorem State.logDrop_txph (s : State) (p : Packet) : (s.logDrop p).txph = s.txph := rfl
@[simp] theorem State.logDrop_txtimer (s : State) (p : Packet) : (s.logDrop p).txtimer = s.txtimer := rfl
@[simp] theorem State.logDrop_txhold (s : State) (p : Packet) : (s.logDrop p).txhold = s.txhold := rfl
@[simp] theorem State.logDrop_txout (s : State) (p : Packet) : (s.logDrop p).txout = s.txout := rfl
@[simp] theorem State.logDrop_txgo (s : State) (p : Packet) : (s.logDrop p).txgo = s.txgo := rfl
@[simp] theorem State.logDrop_rxph (s : State) (p : Packet) : (s.logDrop p).rxph = s.rxph := rfl
@[simp] theorem State.logDrop_rxlen (s : State) (p : Packet) : (s.logDrop p).rxlen = s.rxlen := rfl
@[simp] theorem State.logDrop_rxidx (s : State) (p : Packet) : (s.logDrop p).rxidx = s.rxidx := rfl
@[simp] theorem State.logDrop_rxbuf (s : State) (p : Packet) : (s.logDrop p).rxbuf = s.rxbuf := rfl
@[simp] theorem State.logDrop_rthold (s : State) (p : Packet) : (s.logDrop p).rthold = s.rthold := rfl
@[simp] theorem State.logDrop_buhold (s : State) (p : Packet) : (s.logDrop p).buhold = s.buhold := rfl
@[simp] theorem State.logDrop_bdhold (s : State) (p : Packet) : (s.logDrop p).bdhold = s.bdhold := rfl
@[simp] theorem State.logDrop_rxd (s : State) (p : Packet) : (s.logDrop p).rxd = s.rxd := rfl
@[simp] theorem State.logDrop_sched (s : State) (p : Packet) : (s.logDrop p).sched = s.sched := rfl
@[simp] theorem State.logDrop_out (s : State) (p : Packet) : (s.logDrop p).out = s.out ++ [.log p (Config.logText s.fresh)] := rfl
@[simp] theorem State.logDrop_fresh (s : State) (p : Packet) : (s.logDrop p).fresh = s.fresh + 1 := rfl
@[simp] theorem State.logDrop_coupling (s : State) (p : Packet) : (s.logDrop p).coupling = s.coupling := rfl

@[simp] theorem State.logDrop_queue (s : State) (p : Packet) (q : QueueId) : (s.logDrop p).queue q = s.queue q := by
  cases q <;> rfl

/-! ### `State.loadSent` -/

@[simp] theorem State.loadSent_cfg (s : State) (ph : TxPhase) : (s.loadSent ph).cfg = s.cfg := rfl
@[simp] theorem State.loadSent_tiq (s : State) (ph : TxPhase) : (s.loadSent ph).tiq = s.tiq := rfl
@[simp] theorem State.loadSent_teq (s : State) (ph : TxPhase) : (s.loadSent ph).teq = s.teq := rfl
@[simp] theorem State.loadSent_riq (s : State) (ph : TxPhase) : (s.loadSent ph).riq = s.riq := rfl
@[simp] theorem State.loadSent_roq (s : State) (ph : TxPhase) : (s.loadSent ph).roq = s.roq := rfl
@[simp] theorem State.loadSent_fqTest (s : State) (ph : TxPhase) : (s.loadSent ph).fqTest = s.fqTest := rfl
@[simp] theorem State.loadSent_fqWifi (s : State) (ph : TxPhase) : (s.loadSent ph).fqWifi = s.fqWifi := rfl
@[simp] theorem State.loadSent_fqX0 (s : State) (ph : TxPhase) : (s.loadSent ph).fqX0 = s.fqX0 := rfl
@[simp] theorem State.loadSent_fqX1 (s : State) (ph : TxPhase) : (s.loadSent ph).fqX1 = s.fqX1 := rfl
@[simp] theorem State.loadSent_sig (s : State) (ph : TxPhase) : (s.loadSent ph).sig = s.sig := rfl
@[simp] theorem State.loadSent_txph (s : State) (ph : TxPhase) : (s.loadSent ph).txph = ph := rfl
@[simp] theorem State.loadSent_txtimer (s : State) (ph : TxPhase) : (s.loadSent ph).txtimer = s.txtimer := rfl
@[simp] theorem State.loadSent_txhold (s : State) (ph : TxPhase) : (s.loadSent ph).txhold = s.txhold := rfl
@[simp] theorem State.loadSent_txout (s : State) (ph : TxPhase) : (s.loadSent ph).txout = sent := rfl
@[simp] theorem State.loadSent_txgo (s : State) (ph : TxPhase) : (s.loadSent ph).txgo = s.txgo := rfl
@[simp] theorem State.loadSent_rxph (s : State) (ph : TxPhase) : (s.loadSent ph).rxph = s.rxph := rfl
@[simp] theorem State.loadSent_rxlen (s : State) (ph : TxPhase) : (s.loadSent ph).rxlen = s.rxlen := rfl
@[simp] theorem State.loadSent_rxidx (s : State) (ph : TxPhase) : (s.loadSent ph).rxidx = s.rxidx := rfl
@[simp] theorem State.loadSent_rxbuf (s : State) (ph : TxPhase) : (s.loadSent ph).rxbuf = s.rxbuf := rfl
@[simp] theorem State.loadSent_rthold (s : State) (ph : TxPhase) : (s.loadSent ph).rthold = s.rthold := rfl
@[simp] theorem State.loadSent_buhold (s : State) (ph : TxPhase) : (s.loadSent ph).buhold = s.buhold := rfl
@[simp] theorem State.loadSent_bdhold (s : State) (ph : TxPhase) : (s.loadSent ph).bdhold = s.bdhold := rfl
@[simp] theorem State.loadSent_rxd (s : State) (ph : TxPhase) : (s.loadSent ph).rxd = s.rxd := rfl
@[simp] theorem State.loadSent_sched (s : State) (ph : TxPhase) : (s.loadSent ph).sched = s.sched := rfl
@[simp] theorem State.loadSent_out (s : State) (ph : TxPhase) : (s.loadSent ph).out = s.out := rfl
@[simp] theorem State.loadSent_fresh (s : State) (ph : TxPhase) : (s.loadSent ph).fresh = s.fresh := rfl
@[simp] theorem State.loadSent_coupling (s : State) (ph : TxPhase) : (s.loadSent ph).coupling = s.coupling := rfl

@[simp] theorem State.loadSent_queue (s : State) (ph : TxPhase) (q : QueueId) : (s.loadSent ph).queue q = s.queue q := by
  cases q <;> rfl

/-! ### `State.loadData` -/

@[simp] theorem State.loadData_cfg (s : State) (p : Packet) : (s.loadData p).cfg = s.cfg := rfl
@[simp] theorem State.loadData_tiq (s : State) (p : Packet) : (s.loadData p).tiq = s.tiq := rfl
@[simp] theorem State.loadData_teq (s : State) (p : Packet) : (s.loadData p).teq = s.teq := rfl
@[simp] theorem State.loadData_riq (s : State) (p : Packet) : (s.loadData p).riq = s.riq := rfl
@[simp] theorem State.loadData_roq (s : State) (p : Packet) : (s.loadData p).roq = s.roq := rfl
@[simp] theorem State.loadData_fqTest (s : State) (p : Packet) : (s.loadData p).fqTest = s.fqTest := rfl
@[simp] theorem State.loadData_fqWifi (s : State) (p : Packet) : (s.loadData p).fqWifi = s.fqWifi := rfl
@[simp] theorem State.loadData_fqX0 (s : State) (p : Packet) : (s.loadData p).fqX0 = s.fqX0 := rfl
@[simp] theorem State.loadData_fqX1 (s : State) (p : Packet) : (s.loadData p).fqX1 = s.fqX1 := rfl
@[simp] theorem State.loadData_sig (s : State) (p : Packet) : (s.loadData p).sig = s.sig := rfl
@[simp] theorem State.loadData_txph (s : State) (p : Packet) : (s.loadData p).txph = .dataEmit := rfl
@[simp] theorem State.loadData_txtimer (s : State) (p : Packet) : (s.loadData p).txtimer = s.txtimer := rfl
@[simp] theorem State.loadData_txhold (s : State) (p : Packet) : (s.loadData p).txhold = s.txhold := rfl
@[simp] theorem State.loadData_txout (s : State) (p : Packet) : (s.loadData p).txout = frameOf p := rfl
@[simp] theorem State.loadData_txgo (s : State) (p : Packet) : (s.loadData p).txgo = s.txgo := rfl
@[simp] theorem State.loadData_rxph (s : State) (p : Packet) : (s.loadData p).rxph = s.rxph := rfl
@[simp] theorem State.loadData_rxlen (s : State) (p : Packet) : (s.loadData p).rxlen = s.rxlen := rfl
@[simp] theorem State.loadData_rxidx (s : State) (p : Packet) : (s.loadData p).rxidx = s.rxidx := rfl
@[simp] theorem State.loadData_rxbuf (s : State) (p : Packet) : (s.loadData p).rxbuf = s.rxbuf := rfl
@[simp] theorem State.loadData_rthold (s : State) (p : Packet) : (s.loadData p).rthold = s.rthold := rfl
@[simp] theorem State.loadData_buhold (s : State) (p : Packet) : (s.loadData p).buhold = s.buhold := rfl
@[simp] theorem State.loadData_bdhold (s : State) (p : Packet) : (s.loadData p).bdhold = s.bdhold := rfl
@[simp] theorem State.loadData_rxd (s : State) (p : Packet) : (s.loadData p).rxd = s.rxd := rfl
@[simp] theorem State.loadData_sched (s : State) (p : Packet) : (s.loadData p).sched = s.sched := rfl
@[simp] theorem State.loadData_out (s : State) (p : Packet) : (s.loadData p).out = s.out := rfl
@[simp] theorem State.loadData_fresh (s : State) (p : Packet) : (s.loadData p).fresh = s.fresh := rfl
@[simp] theorem State.loadData_coupling (s : State) (p : Packet) : (s.loadData p).coupling = s.coupling := rfl

@[simp] theorem State.loadData_queue (s : State) (p : Packet) (q : QueueId) : (s.loadData p).queue q = s.queue q := by
  cases q <;> rfl

/-! ### `State.setQueue`, `State.enq` -/

@[simp] theorem State.setQueue_cfg (s : State) (q : QueueId) (l : List Packet) : (s.setQueue q l).cfg = s.cfg := by
  cases q <;> rfl
@[simp] theorem State.setQueue_sig (s : State) (q : QueueId) (l : List Packet) : (s.setQueue q l).sig = s.sig := by
  cases q <;> rfl
@[simp] theorem State.setQueue_txph (s : State) (q : QueueId) (l : List Packet) : (s.setQueue q l).txph = s.txph := by
  cases q <;> rfl
@[simp] theorem State.setQueue_txtimer (s : State) (q : QueueId) (l : List Packet) : (s.setQueue q l).txtimer = s.txtimer := by
  cases q <;> rfl
@[simp] theorem State.setQueue_txhold (s : State) (q : QueueId) (l : List Packet) : (s.setQueue q l).txhold = s.txhold := by
  cases q <;> rfl
@[simp] theorem State.setQueue_txout (s : State) (q : QueueId) (l : List Packet) : (s.setQueue q l).txout = s.txout := by
  cases q <;> rfl
@[simp] theorem State.setQueue_txgo (s : State) (q : QueueId) (l : List Packet) : (s.setQueue q l).txgo = s.txgo := by
  cases q <;> rfl
@[simp] theorem State.setQueue_rxph (s : State) (q : QueueId) (l : List Packet) : (s.setQueue q l).rxph = s.rxph := by
  cases q <;> rfl
@[simp] theorem State.setQueue_rxlen (s : State) (q : QueueId) (l : List Packet) : (s.setQueue q l).rxlen = s.rxlen := by
  cases q <;> rfl
@[simp] theorem State.setQueue_rxidx (s : State) (q : QueueId) (l : List Packet) : (s.setQueue q l).rxidx = s.rxidx := by
  cases q <;> rfl
@[simp] theorem State.setQueue_rxbuf (s : State) (q : QueueId) (l : List Packet) : (s.setQueue q l).rxbuf = s.rxbuf := by
  cases q <;> rfl
@[simp] theorem State.setQueue_rthold (s : State) (q : QueueId) (l : List Packet) : (s.setQueue q l).rthold = s.rthold := by
  cases q <;> rfl
@[simp] theorem State.setQueue_buhold (s : State) (q : QueueId) (l : List Packet) : (s.setQueue q l).buhold = s.buhold := by
  cases q <;> rfl
@[simp] theorem State.setQueue_bdhold (s : State) (q : QueueId) (l : List Packet) : (s.setQueue q l).bdhold = s.bdhold := by
  cases q <;> rfl
@[simp] theorem State.setQueue_rxd (s : State) (q : QueueId) (l : List Packet) : (s.setQueue q l).rxd = s.rxd := by
  cases q <;> rfl
@[simp] theorem State.setQueue_sched (s : State) (q : QueueId) (l : List Packet) : (s.setQueue q l).sched = s.sched := by
  cases q <;> rfl
@[simp] theorem State.setQueue_out (s : State) (q : QueueId) (l : List Packet) : (s.setQueue q l).out = s.out := by
  cases q <;> rfl
@[simp] theorem State.setQueue_fresh (s : State) (q : QueueId) (l : List Packet) : (s.setQueue q l).fresh = s.fresh := by
  cases q <;> rfl
@[simp] theorem State.setQueue_coupling (s : State) (q : QueueId) (l : List Packet) : (s.setQueue q l).coupling = s.coupling := by
  cases q <;> rfl
@[simp] theorem State.enq_cfg (s : State) (q : QueueId) (p : Packet) : (s.enq q p).cfg = s.cfg := by
  simp [State.enq]
@[simp] theorem State.enq_sig (s : State) (q : QueueId) (p : Packet) : (s.enq q p).sig = s.sig := by
  simp [State.enq]
@[simp] theorem State.enq_txph (s : State) (q : QueueId) (p : Packet) : (s.enq q p).txph = s.txph := by
  simp [State.enq]
@[simp] theorem State.enq_txtimer (s : State) (q : QueueId) (p : Packet) : (s.enq q p).txtimer = s.txtimer := by
  simp [State.enq]
@[simp] theorem State.enq_txhold (s : State) (q : QueueId) (p : Packet) : (s.enq q p).txhold = s.txhold := by
  simp [State.enq]
@[simp] theorem State.enq_txout (s : State) (q : QueueId) (p : Packet) : (s.enq q p).txout = s.txout := by
  simp [State.enq]
@[simp] theorem State.enq_txgo (s : State) (q : QueueId) (p : Packet) : (s.enq q p).txgo = s.txgo := by
  simp [State.enq]
@[simp] theorem State.enq_rxph (s : State) (q : QueueId) (p : Packet) : (s.enq q p).rxph = s.rxph := by
  simp [State.enq]
@[simp] theorem State.enq_rxlen (s : State) (q : QueueId) (p : Packet) : (s.enq q p).rxlen = s.rxlen := by
  simp [State.enq]
@[simp] theorem State.enq_rxidx (s : State) (q : QueueId) (p : Packet) : (s.enq q p).rxidx = s.rxidx := by
  simp [State.enq]
@[simp] theorem State.enq_rxbuf (s : State) (q : QueueId) (p : Packet) : (s.enq q p).rxbuf = s.rxbuf := by
  simp [State.enq]
@[simp] theorem State.enq_rthold (s : State) (q : QueueId) (p : Packet) : (s.enq q p).rthold = s.rthold := by
  simp [State.enq]
@[simp] theorem State.enq_buhold (s : State) (q : QueueId) (p : Packet) : (s.enq q p).buhold = s.buhold := by
  simp [State.enq]
@[simp] theorem State.enq_bdhold (s : State) (q : QueueId) (p : Packet) : (s.enq q p).bdhold = s.bdhold := by
  simp [State.enq]
@[simp] theorem State.enq_rxd (s : State) (q : QueueId) (p : Packet) : (s.enq q p).rxd = s.rxd := by
  simp [State.enq]
@[simp] theorem State.enq_sched (s : State) (q : QueueId) (p : Packet) : (s.enq q p).sched = s.sched := by
  simp [State.enq]
@[simp] theorem State.enq_out (s : State) (q : QueueId) (p : Packet) : (s.enq q p).out = s.out := by
  simp [State.enq]
@[simp] theorem State.enq_fresh (s : State) (q : QueueId) (p : Packet) : (s.enq q p).fresh = s.fresh := by
  simp [State.enq]
@[simp] theorem State.enq_coupling (s : State) (q : QueueId) (p : Packet) : (s.enq q p).coupling = s.coupling := by
  simp [State.enq]

/-- The queue just set holds what it was set to. -/
@[simp] theorem State.queue_setQueue_self (s : State) (q : QueueId) (l : List Packet) : (s.setQueue q l).queue q = l := by
  cases q <;> rfl

/-- Every other queue is unchanged. -/
theorem State.queue_setQueue_ne (s : State) {q r : QueueId} (l : List Packet) (h : r ≠ q) :
    (s.setQueue q l).queue r = s.queue r := by
  cases q <;> cases r <;> first | rfl | exact absurd rfl h

/-- `enq` appends at the tail (spec/10_state.md R23). -/
@[simp] theorem State.queue_enq_self (s : State) (q : QueueId) (p : Packet) :
    (s.enq q p).queue q = s.queue q ++ [p] := by
  simp [State.enq]

/-- `enq` leaves every other queue alone. -/
theorem State.queue_enq_ne (s : State) {q r : QueueId} (p : Packet) (h : r ≠ q) : (s.enq q p).queue r = s.queue r :=
  s.queue_setQueue_ne _ h

/-- `deq` gives the head and leaves the rest (R23). -/
theorem State.deq_eq_some {s : State} {q : QueueId} {p : Packet} {t : State} (h : s.deq q = some (p, t)) :
    ∃ l, s.queue q = p :: l ∧ t = s.setQueue q l := by
  unfold State.deq at h
  split at h
  · cases h
  · rename_i p' l hq
    simp only [Option.some.injEq, Prod.mk.injEq] at h
    exact ⟨l, by rw [hq, h.1], h.2.symm⟩

/-- `deq` gives nothing exactly when the queue is empty (R23). -/
theorem State.deq_eq_none {s : State} {q : QueueId} : s.deq q = none ↔ s.queue q = [] := by
  unfold State.deq
  split <;> simp_all

/-! ### Queues as fields -/

@[simp] theorem State.queue_tiq (s : State) : s.queue .tiq = s.tiq := rfl
@[simp] theorem State.queue_teq (s : State) : s.queue .teq = s.teq := rfl
@[simp] theorem State.queue_riq (s : State) : s.queue .riq = s.riq := rfl
@[simp] theorem State.queue_roq (s : State) : s.queue .roq = s.roq := rfl
@[simp] theorem State.queue_fqTest (s : State) : s.queue .fqTest = s.fqTest := rfl
@[simp] theorem State.queue_fqWifi (s : State) : s.queue .fqWifi = s.fqWifi := rfl
@[simp] theorem State.queue_fqX0 (s : State) : s.queue .fqX0 = s.fqX0 := rfl
@[simp] theorem State.queue_fqX1 (s : State) : s.queue .fqX1 = s.fqX1 := rfl
@[simp] theorem State.setQueue_tiq_eq (s : State) (l : List Packet) : s.setQueue .tiq l = { s with tiq := l } := rfl
@[simp] theorem State.setQueue_teq_eq (s : State) (l : List Packet) : s.setQueue .teq l = { s with teq := l } := rfl
@[simp] theorem State.setQueue_riq_eq (s : State) (l : List Packet) : s.setQueue .riq l = { s with riq := l } := rfl
@[simp] theorem State.setQueue_roq_eq (s : State) (l : List Packet) : s.setQueue .roq l = { s with roq := l } := rfl
@[simp] theorem State.setQueue_fqTest_eq (s : State) (l : List Packet) : s.setQueue .fqTest l = { s with fqTest := l } := rfl
@[simp] theorem State.setQueue_fqWifi_eq (s : State) (l : List Packet) : s.setQueue .fqWifi l = { s with fqWifi := l } := rfl
@[simp] theorem State.setQueue_fqX0_eq (s : State) (l : List Packet) : s.setQueue .fqX0 l = { s with fqX0 := l } := rfl
@[simp] theorem State.setQueue_fqX1_eq (s : State) (l : List Packet) : s.setQueue .fqX1 l = { s with fqX1 := l } := rfl

end Sys2Proof.Machine
end

