-- ==== Sys2Proof/Laws/Ops.lean ====
section
/-! SUPPORT. For each shared operation, everything it can do, said once: later proofs cite these lemmas instead of unfolding
the operation. -/

namespace Sys2Proof.Machine

open Sys2Proof

/-! ### Guarded transitions -/

/-- With valid parameters and a true guard a transition fires. -/
theorem guarded_fires {s : State} {g : Prop} [Decidable g] {r : Result} (hc : s.cfg.Valid) (hg : g) :
    guarded s g r = r := by
  unfold guarded; rw [if_pos hc, if_pos hg]

/-- With valid parameters and a false guard the agent is held and nothing changes. -/
theorem guarded_held {s : State} {g : Prop} [Decidable g] {r : Result} (hc : s.cfg.Valid) (hg : ¬ g) :
    guarded s g r = .next s := by
  unfold guarded; rw [if_pos hc, if_neg hg]

/-- Bad parameters are refused whatever the guard (spec/00_scope.md R8). -/
theorem guarded_refuses {s : State} {g : Prop} [Decidable g] {r : Result} (hc : ¬ s.cfg.Valid) :
    guarded s g r = .refused .badParameters := by
  unfold guarded; rw [if_neg hc]

/-- A guarded transition that answers a next state fired or was held. -/
theorem guarded_next {s t : State} {g : Prop} [Decidable g] {r : Result} (h : guarded s g r = .next t) :
    s.cfg.Valid ∧ ((g ∧ r = .next t) ∨ (¬ g ∧ t = s)) := by
  unfold guarded at h
  split at h
  · rename_i hc
    split at h
    · rename_i hg; exact ⟨hc, .inl ⟨hg, h⟩⟩
    · rename_i hg; cases h; exact ⟨hc, .inr ⟨hg, rfl⟩⟩
  · cases h

/-- A transition whose guard is false changes nothing. -/
theorem blocked_next {s t : State} (h : blocked s = .next t) : s.cfg.Valid ∧ t = s := by
  have := guarded_next h
  tauto

/-- With valid parameters it answers the state unchanged. -/
theorem blocked_eq {s : State} (hc : s.cfg.Valid) : blocked s = .next s := guarded_held hc not_false

/-- An input interface that answers a next state was offered a packet. -/
theorem offered_next {s t : State} {p : Packet} {r : Result} (h : offered s p r = .next t) :
    s.cfg.Valid ∧ IsPacket s.cfg p ∧ r = .next t := by
  obtain ⟨hc, ⟨-, h⟩ | ⟨hf, -⟩⟩ := guarded_next h
  · split at h
    · rename_i hp; exact ⟨hc, hp, h⟩
    · cases h
  · exact absurd trivial hf

/-- Two transitions in succession answer a next state when both do. -/
theorem andThen_next {r : Result} {f : State → Result} {t : State} (h : andThen r f = .next t) :
    ∃ s, r = .next s ∧ f s = .next t := by
  cases r with
  | next s => exact ⟨s, rfl, h⟩
  | fault e => cases h
  | refused e => cases h

/-! ### The RX engine's effects -/

theorem takeJunk_next {b : Byte} {s t : State} (h : takeJunk b s = .next t) :
    s.cfg.Valid ∧ ((s.rxph = .hunt ∧ b ≠ startMarker) ∧ t = s.emit (.silent (.framingError b)) ∨
      ¬ (s.rxph = .hunt ∧ b ≠ startMarker) ∧ t = s) := by
  obtain ⟨hc, ⟨hg, h⟩ | h⟩ := guarded_next h
  · cases h; exact ⟨hc, .inl ⟨hg, rfl⟩⟩
  · exact ⟨hc, .inr h⟩

theorem takeStart_next {b : Byte} {s t : State} (h : takeStart b s = .next t) :
    s.cfg.Valid ∧ ((s.rxph = .hunt ∧ b = startMarker) ∧ t = { s with rxph := .len } ∨
      ¬ (s.rxph = .hunt ∧ b = startMarker) ∧ t = s) := by
  obtain ⟨hc, ⟨hg, h⟩ | h⟩ := guarded_next h
  · cases h; exact ⟨hc, .inl ⟨hg, rfl⟩⟩
  · exact ⟨hc, .inr h⟩

theorem takeLen0_next {b : Byte} {s t : State} (h : takeLen0 b s = .next t) :
    s.cfg.Valid ∧ ((s.rxph = .len ∧ b = 0x00#8) ∧ t = { s.raise .pgs with rxph := .hunt } ∨
      ¬ (s.rxph = .len ∧ b = 0x00#8) ∧ t = s) := by
  obtain ⟨hc, ⟨hg, h⟩ | h⟩ := guarded_next h
  · cases h; exact ⟨hc, .inl ⟨hg, rfl⟩⟩
  · exact ⟨hc, .inr h⟩

theorem takeLenOk_next {b : Byte} {s t : State} (h : takeLenOk b s = .next t) :
    s.cfg.Valid ∧ ((s.rxph = .len ∧ 1 ≤ b.toNat ∧ b.toNat ≤ s.cfg.mtu) ∧
        t = { s with rxlen := b, rxidx := 0, rxph := .data } ∨
      ¬ (s.rxph = .len ∧ 1 ≤ b.toNat ∧ b.toNat ≤ s.cfg.mtu) ∧ t = s) := by
  obtain ⟨hc, ⟨hg, h⟩ | h⟩ := guarded_next h
  · cases h; exact ⟨hc, .inl ⟨hg, rfl⟩⟩
  · exact ⟨hc, .inr h⟩

theorem takeLenOver_next {b : Byte} {s t : State} (h : takeLenOver b s = .next t) :
    s.cfg.Valid ∧ ((s.rxph = .len ∧ s.cfg.mtu < b.toNat) ∧ t = { s.emit (.silent (.overlength b)) with rxph := .hunt } ∨
      ¬ (s.rxph = .len ∧ s.cfg.mtu < b.toNat) ∧ t = s) := by
  obtain ⟨hc, ⟨hg, h⟩ | h⟩ := guarded_next h
  · cases h; exact ⟨hc, .inl ⟨hg, rfl⟩⟩
  · exact ⟨hc, .inr h⟩

theorem takeData_next {b : Byte} {s t : State} (h : takeData b s = .next t) :
    s.cfg.Valid ∧ (s.rxph = .data ∧ s.rxidx < s.rxbuf.length ∧
        t = { s with
          rxbuf := s.rxbuf.set s.rxidx b
          rxidx := s.rxidx + 1
          rxph := if s.rxidx + 1 = s.rxlen.toNat then .deliver else .data } ∨
      s.rxph ≠ .data ∧ t = s) := by
  obtain ⟨hc, ⟨hg, h⟩ | ⟨hg, h⟩⟩ := guarded_next h
  · split at h
    · rename_i hi; cases h; exact ⟨hc, .inl ⟨hg, hi, rfl⟩⟩
    · cases h
  · exact ⟨hc, .inr ⟨hg, h⟩⟩

theorem deliver_next {s t : State} (h : deliver s = .next t) :
    s.cfg.Valid ∧ (s.rxph = .deliver ∧ s.hasRoom .tiq ∧ 1 ≤ s.rxlen.toNat ∧ s.rxlen.toNat ≤ s.rxbuf.length ∧
        t = { (s.enq .tiq (s.rxbuf.take s.rxlen.toNat)).raise .owe with rxph := .hunt } ∨
      ¬ (s.rxph = .deliver ∧ s.hasRoom .tiq) ∧ t = s) := by
  obtain ⟨hc, ⟨⟨hp, hr⟩, h⟩ | ⟨hg, h⟩⟩ := guarded_next h
  · split at h
    · rename_i hi; cases h; exact ⟨hc, .inl ⟨hp, hr, hi.1, hi.2, rfl⟩⟩
    · cases h
  · exact ⟨hc, .inr ⟨hg, h⟩⟩

/-- A step of the RX engine either waits or takes the byte RXD offers. -/
theorem fromLine_next {s t : State} {accepts : Byte → Bool} {f : Byte → State → Result}
    (h : fromLine s accepts f = .next t) :
    (∃ b rest, s.rxd = b :: rest ∧ accepts b = true ∧ f b { s with rxd := rest } = .next t) ∨ t = s := by
  unfold fromLine at h
  split at h
  · exact .inr (blocked_next h).2
  · rename_i b rest hr
    split at h
    · rename_i ha; exact .inl ⟨b, rest, hr, ha, h⟩
    · exact .inr (blocked_next h).2

/-! ### Dispatcher, queues, TX engine -/

theorem routeHeld_next {code : Byte} {q : QueueId} {s t : State} (h : routeHeld code q s = .next t) :
    s.cfg.Valid ∧ ((∃ p, s.rthold = some p ∧ fnOf p = some code ∧ s.hasRoom q ∧ t = { s.enq q p with rthold := none }) ∨
      t = s) := by
  unfold routeHeld at h
  split at h
  · have := blocked_next h; exact ⟨this.1, .inr this.2⟩
  · rename_i p hp
    obtain ⟨hc, ⟨⟨hf, hr⟩, h⟩ | ⟨-, h⟩⟩ := guarded_next h
    · cases h; exact ⟨hc, .inl ⟨p, hp, hf, hr, rfl⟩⟩
    · exact ⟨hc, .inr h⟩

theorem dropHeld_next {s t : State} (h : dropHeld s = .next t) :
    s.cfg.Valid ∧ ((∃ p, s.rthold = some p ∧ Unrouted s.cfg (fnOf p) ∧ t = { s.logDrop p with rthold := none }) ∨
      t = s) := by
  unfold dropHeld at h
  split at h
  · have := blocked_next h; exact ⟨this.1, .inr this.2⟩
  · rename_i p hp
    obtain ⟨hc, ⟨hf, h⟩ | ⟨-, h⟩⟩ := guarded_next h
    · cases h; exact ⟨hc, .inl ⟨p, hp, hf, rfl⟩⟩
    · exact ⟨hc, .inr h⟩

theorem takeFrom_next {q : QueueId} {give : Packet → Output} {s t : State} (h : takeFrom q give s = .next t) :
    (∃ p l, s.queue q = p :: l ∧ t = (s.setQueue q l).emit (give p)) ∨ (s.queue q = [] ∧ t = s) := by
  unfold takeFrom at h
  split at h
  · rename_i hq; exact .inr ⟨State.deq_eq_none.1 hq, (blocked_next h).2⟩
  · rename_i p t' hq
    obtain ⟨l, hl, rfl⟩ := State.deq_eq_some hq
    obtain ⟨-, ⟨-, h⟩ | ⟨hf, -⟩⟩ := guarded_next h
    · cases h; exact .inl ⟨p, l, hl, rfl⟩
    · exact absurd trivial hf

theorem emitDone_next {ph after : TxPhase} {s t : State} (h : emitDone ph after s = .next t) :
    s.cfg.Valid ∧ ((s.txph = ph ∧ s.txout = []) ∧ t = { s with txph := after } ∨
      ¬ (s.txph = ph ∧ s.txout = []) ∧ t = s) := by
  obtain ⟨hc, ⟨hg, h⟩ | h⟩ := guarded_next h
  · cases h; exact ⟨hc, .inl ⟨hg, rfl⟩⟩
  · exact ⟨hc, .inr h⟩

/-! ### The signal group -/

/-- A wait leaves the bits outside its set alone and clears those it reports (spec/41_flow_control.md R142). -/
theorem Sig.clear_reported (g : Sig) (m : SigSet) :
    g.clear (g.reported m) =
      { pgs := g.pgs && !m.pgs, owe := g.owe && !m.owe, hob := g.hob && !m.hob } := by
  obtain ⟨p, o, h⟩ := g
  obtain ⟨mp, mo, mh⟩ := m
  cases p <;> cases o <;> cases h <;> cases mp <;> cases mo <;> cases mh <;> rfl

/-- `wait({OWE, HOB})` clears both and keeps `sig.PGS`. -/
@[simp] theorem Sig.clear_reported_idleSet (g : Sig) :
    g.clear (g.reported idleSet) = { g with owe := false, hob := false } := by
  simp [Sig.clear_reported, idleSet]

/-- `wait({OWE, PGS})` clears both and keeps `sig.HOB`. -/
@[simp] theorem Sig.clear_reported_holdSet (g : Sig) :
    g.clear (g.reported holdSet) = { g with owe := false, pgs := false } := by
  simp [Sig.clear_reported, holdSet]

@[simp] theorem Sig.raise_pgs (g : Sig) : g.raise .pgs = { g with pgs := true } := rfl
@[simp] theorem Sig.raise_owe (g : Sig) : g.raise .owe = { g with owe := true } := rfl
@[simp] theorem Sig.raise_hob (g : Sig) : g.raise .hob = { g with hob := true } := rfl
@[simp] theorem Sig.get_pgs (g : Sig) : g.get .pgs = g.pgs := rfl
@[simp] theorem Sig.get_owe (g : Sig) : g.get .owe = g.owe := rfl
@[simp] theorem Sig.get_hob (g : Sig) : g.get .hob = g.hob := rfl

/-! ### The trace -/

@[simp] theorem txdBytes_append (a b : List Output) : txdBytes (a ++ b) = txdBytes a ++ txdBytes b :=
  List.filterMap_append

@[simp] theorem txdBytes_nil : txdBytes [] = [] := rfl
@[simp] theorem txdBytes_txd (b : Byte) : txdBytes [.txd b] = [b] := rfl
@[simp] theorem txdBytes_log (p : Packet) (x : List Byte) : txdBytes [.log p x] = [] := rfl
@[simp] theorem txdBytes_recvTest (p : Packet) : txdBytes [.recvTest p] = [] := rfl
@[simp] theorem txdBytes_recvWifi (p : Packet) : txdBytes [.recvWifi p] = [] := rfl
@[simp] theorem txdBytes_received (p : Packet) : txdBytes [.received p] = [] := rfl
@[simp] theorem txdBytes_outbound (p : Packet) : txdBytes [.outbound p] = [] := rfl
@[simp] theorem txdBytes_encoded (bs : List Byte) : txdBytes [.encoded bs] = [] := rfl
@[simp] theorem txdBytes_decoded (r : Option (Frame × List Byte)) : txdBytes [.decoded r] = [] := rfl
@[simp] theorem txdBytes_reported (w : SigSet) : txdBytes [.reported w] = [] := rfl
@[simp] theorem txdBytes_polled (x : Bool) : txdBytes [.polled x] = [] := rfl
@[simp] theorem txdBytes_silent (e : Silent) : txdBytes [.silent e] = [] := rfl

/-- Silent events put nothing on the line. -/
@[simp] theorem txdBytes_silents (es : List Silent) : txdBytes (es.map .silent) = [] := by
  induction es with
  | nil => rfl
  | cons e es ih => simp [txdBytes]

end Sys2Proof.Machine
end

