-- ==== Sys2Proof/Laws/Inversion.lean ====
section
/-! SUPPORT. Everything an instruction can do, said once: an instruction that answers a next state either changed nothing or
fired as one constructor of `Fires` says. Every statement over all instructions is a case split on it. -/

namespace Sys2Proof.Machine

open Sys2Proof

/-- The transition of an instruction that fires, with its guard. -/
inductive Fires : Instr → State → State → Prop where
  | sentinel {s} : s.rxph = .hunt → Fires .sentinel s { s with sig := { s.sig with pgs := true } }
  | dataFrame {s p} : s.rxph = .hunt → IsPacket s.cfg p → p.length ≤ s.rxbuf.length → s.tiq.length < s.cfg.capTiq →
      Fires (.dataFrame p) s { s with
        tiq := s.tiq ++ [p], sig := { s.sig with owe := true }
        rxlen := BitVec.ofNat 8 p.length, rxidx := p.length, rxbuf := p ++ s.rxbuf.drop p.length }
  | dataFrameWaits {s p} : s.rxph = .hunt → IsPacket s.cfg p → p.length ≤ s.rxbuf.length →
      ¬ s.tiq.length < s.cfg.capTiq →
      Fires (.dataFrame p) s { s with
        rxph := .deliver
        rxlen := BitVec.ofNat 8 p.length, rxidx := p.length, rxbuf := p ++ s.rxbuf.drop p.length }
  | junk {s b} : s.rxph = .hunt → b ≠ startMarker →
      Fires (.junk b) s { s with out := s.out ++ [.silent (.framingError b)] }
  | start {s} : s.rxph = .hunt → Fires .start s { s with rxph := .len }
  | len0 {s} : s.rxph = .len → Fires .len0 s { s with sig := { s.sig with pgs := true }, rxph := .hunt }
  | lenok {s b} : s.rxph = .len → 1 ≤ b.toNat → b.toNat ≤ s.cfg.mtu →
      Fires (.lenok b) s { s with rxlen := b, rxidx := 0, rxph := .data }
  | lenover {s b} : s.rxph = .len → s.cfg.mtu < b.toNat →
      Fires (.lenover b) s { s with out := s.out ++ [.silent (.overlength b)], rxph := .hunt }
  | data {s b} : s.rxph = .data → s.rxidx < s.rxbuf.length →
      Fires (.data b) s { s with
        rxbuf := s.rxbuf.set s.rxidx b, rxidx := s.rxidx + 1
        rxph := if s.rxidx + 1 = s.rxlen.toNat then .deliver else .data }
  | routeTest {s p} : s.rthold = some p → fnOf p = some s.cfg.fnTest → s.fqTest.length < s.cfg.capFq →
      Fires .routeTest s { s with fqTest := s.fqTest ++ [p], rthold := none }
  | routeWifiCtrl {s p} : s.rthold = some p → fnOf p = some s.cfg.fnWifi → s.fqWifi.length < s.cfg.capFq →
      Fires .routeWifiCtrl s { s with fqWifi := s.fqWifi ++ [p], rthold := none }
  | routeUnrouted {s p} : s.rthold = some p → Unrouted s.cfg (fnOf p) →
      Fires (.routeUnrouted (fnOf p)) s { s with
        rthold := none, out := s.out ++ [.log p (Config.logText s.fresh)], fresh := s.fresh + 1 }
  | encodeData {s p} : IsPacket s.cfg p → Fires (.encodeData p) s { s with out := s.out ++ [.encoded (frameOf p)] }
  | encodeSentinel {s} : Fires .encodeSentinel s { s with out := s.out ++ [.encoded sent] }
  | decodeNext {s bs} : Fires (.decodeNext bs) s { s with
      out := s.out ++ (decodeDiscards s.cfg.mtu bs).map .silent ++ [.decoded (decodeNext s.cfg.mtu bs)] }
  | transportSend {s p} : IsPacket s.cfg p → s.teq.length < s.cfg.capTeq →
      Fires (.transportSend p) s { s with teq := s.teq ++ [p], sig := { s.sig with hob := true } }
  | transportReceive {s p l} : s.tiq = p :: l →
      Fires .transportReceive s { s with tiq := l, out := s.out ++ [.received p] }
  | postInbound {s p} : IsPacket s.cfg p → s.riq.length < s.cfg.capRiq →
      Fires (.postInbound p) s { s with riq := s.riq ++ [p] }
  | nextOutbound {s p l} : s.roq = p :: l → Fires .nextOutbound s { s with roq := l, out := s.out ++ [.outbound p] }
  | receiveForTest {s p l} : s.fqTest = p :: l →
      Fires .receiveForTest s { s with fqTest := l, out := s.out ++ [.recvTest p] }
  | receiveForWifiCtrl {s p l} : s.fqWifi = p :: l →
      Fires .receiveForWifiCtrl s { s with fqWifi := l, out := s.out ++ [.recvWifi p] }
  | submitOutbound {s p} : IsPacket s.cfg p → s.roq.length < s.cfg.capRoq →
      Fires (.submitOutbound p) s { s with roq := s.roq ++ [p] }
  | sigRaise {s x} : Fires (.sigRaise x) s { s with sig := s.sig.raise x }
  | sigWait {s m} : anyBit (s.sig.reported m) = true →
      Fires (.sigWait m) s { s with
        sig := s.sig.clear (s.sig.reported m), out := s.out ++ [.reported (s.sig.reported m)] }
  | sigPoll {s} : Fires .sigPoll s { s with out := s.out ++ [.polled s.sig.pgs] }
  | rxDeliver {s} : s.rxph = .deliver → s.tiq.length < s.cfg.capTiq → 1 ≤ s.rxlen.toNat →
      s.rxlen.toNat ≤ s.rxbuf.length →
      Fires .rxDeliver s { s with
        tiq := s.tiq ++ [s.rxbuf.take s.rxlen.toNat], sig := { s.sig with owe := true }, rxph := .hunt }
  | txTick {s} : (s.txph = .delay ∨ s.txph = .syncWait) → 0 < s.txtimer →
      Fires .txTick s { s with txtimer := s.txtimer - 1 }
  | txDelayExpire {s} : s.txph = .delay → s.txtimer = 0 →
      Fires .txDelayExpire s { s with txout := sent, txph := .syncEmit }
  | txEmitByte {s b rest} : s.txout = b :: rest →
      Fires .txEmitByte s { s with txout := rest, out := s.out ++ [.txd b] }
  | txSyncEmitDone {s} : s.txph = .syncEmit → s.txout = [] →
      Fires .txSyncEmitDone s { s with txtimer := s.cfg.tRetry, txph := .syncWait }
  | txSyncPollHit {s} : s.txph = .syncWait → s.txtimer = 0 → s.sig.pgs = true →
      Fires .txSyncPollHit s { s with txph := .check }
  | txSyncPollMiss {s} : s.txph = .syncWait → s.txtimer = 0 → s.sig.pgs = false →
      Fires .txSyncPollMiss s { s with txout := sent, txph := .syncEmit }
  | txCheckEmpty {s} : s.txph = .check → s.teq = [] → Fires .txCheckEmpty s { s with txph := .idleWait }
  | txCheckDeq {s p l} : s.txph = .check → s.teq = p :: l →
      Fires .txCheckDeq s { s with teq := l, txhold := some p, txph := .holdWait }
  | txIdleWakeGrant {s} : s.txph = .idleWait → s.sig.owe = true →
      Fires .txIdleWakeGrant s { s with
        sig := { s.sig with owe := false, hob := false }, txout := sent, txph := .idleEmit }
  | txIdleWakeOutbound {s} : s.txph = .idleWait → s.sig.owe = false → s.sig.hob = true →
      Fires .txIdleWakeOutbound s { s with sig := { s.sig with owe := false, hob := false }, txph := .check }
  | txIdleEmitDone {s} : s.txph = .idleEmit → s.txout = [] → Fires .txIdleEmitDone s { s with txph := .check }
  | txHoldWakeGrant {s} : s.txph = .holdWait → s.sig.owe = true → s.sig.pgs = false →
      Fires .txHoldWakeGrant s { s with
        sig := { s.sig with owe := false, pgs := false }, txout := sent, txgo := false, txph := .grantEmit }
  | txHoldWakeBoth {s} : s.txph = .holdWait → s.sig.owe = true → s.sig.pgs = true →
      Fires .txHoldWakeBoth s { s with
        sig := { s.sig with owe := false, pgs := false }, txout := sent, txgo := true, txph := .grantEmit }
  | txHoldWakeSend {s p} : s.txhold = some p → s.txph = .holdWait → s.sig.owe = false → s.sig.pgs = true →
      Fires .txHoldWakeSend s { s with
        sig := { s.sig with owe := false, pgs := false }, txout := frameOf p, txph := .dataEmit }
  | txGrantEmitDoneBack {s} : s.txph = .grantEmit → s.txout = [] → s.txgo = false →
      Fires .txGrantEmitDoneBack s { s with txph := .holdWait }
  | txGrantEmitDoneGo {s p} : s.txhold = some p → s.txph = .grantEmit → s.txout = [] → s.txgo = true →
      Fires .txGrantEmitDoneGo s { s with txout := frameOf p, txgo := false, txph := .dataEmit }
  | txDataEmitDone {s} : s.txph = .dataEmit → s.txout = [] →
      Fires .txDataEmitDone s { s with txhold := none, txph := .check }
  | rxJunk {s b rest} : s.rxd = b :: rest → s.rxph = .hunt → b ≠ startMarker →
      Fires .rxJunk s { s with rxd := rest, out := s.out ++ [.silent (.framingError b)] }
  | rxStart {s rest} : s.rxd = startMarker :: rest → s.rxph = .hunt →
      Fires .rxStart s { s with rxd := rest, rxph := .len }
  | rxLenSentinel {s rest} : s.rxd = 0x00#8 :: rest → s.rxph = .len →
      Fires .rxLenSentinel s { s with rxd := rest, sig := { s.sig with pgs := true }, rxph := .hunt }
  | rxLenData {s b rest} : s.rxd = b :: rest → s.rxph = .len → 1 ≤ b.toNat → b.toNat ≤ s.cfg.mtu →
      Fires .rxLenData s { s with rxd := rest, rxlen := b, rxidx := 0, rxph := .data }
  | rxLenOver {s b rest} : s.rxd = b :: rest → s.rxph = .len → s.cfg.mtu < b.toNat →
      Fires .rxLenOver s { s with rxd := rest, out := s.out ++ [.silent (.overlength b)], rxph := .hunt }
  | rxDataByte {s b rest} : s.rxd = b :: rest → s.rxph = .data → s.rxidx < s.rxbuf.length →
      Fires .rxDataByte s { s with
        rxd := rest, rxbuf := s.rxbuf.set s.rxidx b, rxidx := s.rxidx + 1
        rxph := if s.rxidx + 1 = s.rxlen.toNat then .deliver else .data }
  | rtFetch {s p l} : s.rthold = none → s.riq = p :: l → Fires .rtFetch s { s with riq := l, rthold := some p }
  | rtRouteTest {s p} : s.rthold = some p → fnOf p = some s.cfg.fnTest → s.fqTest.length < s.cfg.capFq →
      Fires .rtRouteTest s { s with fqTest := s.fqTest ++ [p], rthold := none }
  | rtRouteWifi {s p} : s.rthold = some p → fnOf p = some s.cfg.fnWifi → s.fqWifi.length < s.cfg.capFq →
      Fires .rtRouteWifi s { s with fqWifi := s.fqWifi ++ [p], rthold := none }
  | rtDrop {s p} : s.rthold = some p → Unrouted s.cfg (fnOf p) →
      Fires .rtDrop s { s with
        rthold := none, out := s.out ++ [.log p (Config.logText s.fresh)], fresh := s.fresh + 1 }
  | buFetch {s p l} : s.buhold = none → s.tiq = p :: l → Fires .buFetch s { s with tiq := l, buhold := some p }
  | buPost {s p} : s.buhold = some p → s.riq.length < s.cfg.capRiq →
      Fires .buPost s { s with riq := s.riq ++ [p], buhold := none }
  | bdFetch {s p l} : s.bdhold = none → s.roq = p :: l → Fires .bdFetch s { s with roq := l, bdhold := some p }
  | bdSend {s p} : s.bdhold = some p → s.teq.length < s.cfg.capTeq →
      Fires .bdSend s { s with teq := s.teq ++ [p], sig := { s.sig with hob := true }, bdhold := none }

/-! ### Shared steps of the inversion -/

/-- A plain guarded transition. -/
theorem guarded_next_next {s t u : State} {g : Prop} [Decidable g] (h : guarded s g (.next u) = .next t) :
    s.cfg.Valid ∧ (t = s ∨ g ∧ t = u) := by
  obtain ⟨hc, ⟨hg, h⟩ | ⟨-, h⟩⟩ := guarded_next h
  · cases h; exact ⟨hc, .inr ⟨hg, rfl⟩⟩
  · exact ⟨hc, .inl h⟩

/-- A queue operation inside a transition that gives a result. -/
theorem takeFrom_valid {q : QueueId} {give : Packet → Output} {s t : State} (h : takeFrom q give s = .next t) :
    s.cfg.Valid := by
  unfold takeFrom at h
  split at h
  · exact (blocked_next h).1
  · rename_i p t' hq
    exact (guarded_next h).1

/-- Waiting or taking a byte both need valid parameters. -/
theorem fromLine_valid {s t : State} {accepts : Byte → Bool} {f : Byte → State → Result}
    (hf : ∀ b u v, f b u = .next v → u.cfg.Valid) (h : fromLine s accepts f = .next t) : s.cfg.Valid := by
  unfold fromLine at h
  split at h
  · exact (blocked_next h).1
  · rename_i b rest hr
    split at h
    · have := hf _ _ _ h
      exact this
    · exact (blocked_next h).1

/-- Data bytes taken one after the other in RX_DATA: where the last of them completes the frame, they stand in `rxbuf` from
the old `rxidx` on and the phase is RX_DELIVER. -/
theorem takeAll_next (p : List Byte) : ∀ {s t : State}, p ≠ [] → s.rxph = .data →
    s.rxidx + p.length = s.rxlen.toNat → takeAll p s = .next t →
    s.rxidx + p.length ≤ s.rxbuf.length ∧
      t = { s with
        rxph := .deliver, rxidx := s.rxidx + p.length
        rxbuf := s.rxbuf.take s.rxidx ++ p ++ s.rxbuf.drop (s.rxidx + p.length) } := by
  induction p with
  | nil => intro s t hp; exact absurd rfl hp
  | cons b bs ih =>
    intro s t _ hd hl h
    obtain ⟨u, hu, h⟩ := andThen_next h
    obtain ⟨-, ⟨-, hi, rfl⟩ | ⟨hn, -⟩⟩ := takeData_next hu
    · have hset : s.rxbuf.set s.rxidx b = s.rxbuf.take s.rxidx ++ b :: s.rxbuf.drop (s.rxidx + 1) :=
        List.set_eq_take_append_cons_drop.trans (if_pos hi)
      have hlen : (s.rxbuf.take s.rxidx).length = s.rxidx := by simp; omega
      by_cases hbs : bs = []
      · subst hbs
        simp only [takeAll] at h
        cases h
        simp only [List.length_cons, List.length_nil] at hl
        refine ⟨by simpa using hi, ?_⟩
        simp [hl, hset]
      · have hpos : 0 < bs.length := List.length_pos_iff.2 hbs
        simp only [List.length_cons] at hl
        have hne : s.rxidx + 1 ≠ s.rxlen.toNat := by omega
        obtain ⟨hle, ht⟩ := ih hbs (by simp [hne]) (by simp; omega) h
        simp only [List.length_set] at hle
        refine ⟨by simp; omega, ?_⟩
        rw [ht, hset]
        have h1 : (s.rxbuf.take s.rxidx ++ b :: s.rxbuf.drop (s.rxidx + 1)).take (s.rxidx + 1) =
            s.rxbuf.take s.rxidx ++ [b] := by
          rw [List.take_append, hlen, List.take_of_length_le (by omega)]
          simp
        have h2 : (s.rxbuf.take s.rxidx ++ b :: s.rxbuf.drop (s.rxidx + 1)).drop (s.rxidx + 1 + bs.length) =
            s.rxbuf.drop (s.rxidx + (bs.length + 1)) := by
          rw [List.drop_append, hlen, List.drop_of_length_le (by omega)]
          have : s.rxidx + 1 + bs.length - s.rxidx = bs.length + 1 := by omega
          rw [this]
          simp [List.drop_drop]
          congr 1
          omega
        simp only [h1, h2, List.length_cons]
        simp
        omega
    · exact absurd hd hn

/-- A whole data frame, taken at a frame boundary. -/
theorem execDataFrame_next {p : Packet} {s t : State} (h : execDataFrame p s = .next t) :
    s.cfg.Valid ∧ (t = s ∨ Fires (.dataFrame p) s t) := by
  obtain ⟨hc, ⟨⟨hh, hp⟩, h⟩ | ⟨-, h⟩⟩ := guarded_next h
  · refine ⟨hc, .inr ?_⟩
    have hlt : p.length < 256 := by have := hp.2; have := hc.1.2; omega
    have hn : (BitVec.ofNat 8 p.length).toNat = p.length := by
      rw [BitVec.toNat_ofNat]; exact Nat.mod_eq_of_lt hlt
    obtain ⟨s3, h, h4⟩ := andThen_next h
    obtain ⟨s2, h, h3⟩ := andThen_next h
    obtain ⟨s1, h1, h2⟩ := andThen_next h
    obtain ⟨-, ⟨-, rfl⟩ | ⟨hx, -⟩⟩ := takeStart_next h1
    · obtain ⟨-, ⟨-, rfl⟩ | ⟨hx, -⟩⟩ := takeLenOk_next h2
      · have hne : p ≠ [] := List.length_pos_iff.1 hp.1
        obtain ⟨hb, rfl⟩ := takeAll_next p hne rfl (by rw [hn]; exact Nat.zero_add _) h3
        simp only [Nat.zero_add] at hb
        have htake : (p ++ s.rxbuf.drop p.length).take p.length = p := by simp
        obtain ⟨-, ⟨-, hr, -, -, rfl⟩ | ⟨hx, rfl⟩⟩ := deliver_next h4
        · have := Fires.dataFrame hh hp hb hr
          simp [State.enq, State.raise, Sig.raise, hn, htake]
          cases s
          simp_all
        · have hr : ¬ s.tiq.length < s.cfg.capTiq := fun hr => hx ⟨rfl, hr⟩
          simpa using Fires.dataFrameWaits hh hp hb hr
      · exact absurd ⟨rfl, by rw [hn]; exact hp⟩ hx
    · exact absurd ⟨hh, rfl⟩ hx
  · exact ⟨hc, .inl h⟩

/-- The inversion of `exec`: an instruction that answers a next state changed nothing or fired. -/
theorem exec_next {i : Instr} {s t : State} (h : exec i s = .next t) : s.cfg.Valid ∧ (t = s ∨ Fires i s t) := by
  cases i with
  | sentinel =>
    obtain ⟨hc, ⟨hh, h⟩ | ⟨-, h⟩⟩ := guarded_next h
    · obtain ⟨u, h1, h2⟩ := andThen_next h
      obtain ⟨-, ⟨-, rfl⟩ | ⟨hx, -⟩⟩ := takeStart_next h1
      · obtain ⟨-, ⟨-, rfl⟩ | ⟨hx, -⟩⟩ := takeLen0_next h2
        · refine ⟨hc, .inr ?_⟩
          have := Fires.sentinel hh
          cases s
          simp_all [State.raise, Sig.raise]
        · exact absurd ⟨rfl, rfl⟩ hx
      · exact absurd ⟨hh, rfl⟩ hx
    · exact ⟨hc, .inl h⟩
  | dataFrame p => exact execDataFrame_next h
  | junk b =>
    obtain ⟨hc, ⟨⟨h1, h2⟩, rfl⟩ | ⟨-, rfl⟩⟩ := takeJunk_next h
    exacts [⟨hc, .inr (.junk h1 h2)⟩, ⟨hc, .inl rfl⟩]
  | start =>
    obtain ⟨hc, ⟨⟨h1, -⟩, rfl⟩ | ⟨-, rfl⟩⟩ := takeStart_next h
    exacts [⟨hc, .inr (.start h1)⟩, ⟨hc, .inl rfl⟩]
  | len0 =>
    obtain ⟨hc, ⟨⟨h1, -⟩, rfl⟩ | ⟨-, rfl⟩⟩ := takeLen0_next h
    exacts [⟨hc, .inr (.len0 h1)⟩, ⟨hc, .inl rfl⟩]
  | lenok b =>
    obtain ⟨hc, ⟨⟨h1, h2, h3⟩, rfl⟩ | ⟨-, rfl⟩⟩ := takeLenOk_next h
    exacts [⟨hc, .inr (.lenok h1 h2 h3)⟩, ⟨hc, .inl rfl⟩]
  | lenover b =>
    obtain ⟨hc, ⟨⟨h1, h2⟩, rfl⟩ | ⟨-, rfl⟩⟩ := takeLenOver_next h
    exacts [⟨hc, .inr (.lenover h1 h2)⟩, ⟨hc, .inl rfl⟩]
  | data b =>
    obtain ⟨hc, ⟨h1, h2, rfl⟩ | ⟨-, rfl⟩⟩ := takeData_next h
    exacts [⟨hc, .inr (.data h1 h2)⟩, ⟨hc, .inl rfl⟩]
  | routeTest =>
    obtain ⟨hc, ⟨p, h1, h2, h3, rfl⟩ | rfl⟩ := routeHeld_next h
    exacts [⟨hc, .inr (.routeTest h1 h2 h3)⟩, ⟨hc, .inl rfl⟩]
  | routeWifiCtrl =>
    obtain ⟨hc, ⟨p, h1, h2, h3, rfl⟩ | rfl⟩ := routeHeld_next h
    exacts [⟨hc, .inr (.routeWifiCtrl h1 h2 h3)⟩, ⟨hc, .inl rfl⟩]
  | routeUnrouted f =>
    simp only [exec, execRouteUnrouted] at h
    split at h
    · rename_i hf
      obtain ⟨hc, ⟨p, h1, h2, rfl⟩ | rfl⟩ := dropHeld_next h
      · rw [h1] at hf
        simp only [Option.map_some, Option.some.injEq] at hf
        subst hf
        exact ⟨hc, .inr (.routeUnrouted h1 h2)⟩
      · exact ⟨hc, .inl rfl⟩
    · have := blocked_next h; exact ⟨this.1, .inl this.2⟩
  | encodeData p =>
    obtain ⟨hc, ⟨-, h⟩ | ⟨-, rfl⟩⟩ := guarded_next h
    · split at h
      · rename_i hp; cases h; exact ⟨hc, .inr (.encodeData hp)⟩
      · cases h
    · exact ⟨hc, .inl rfl⟩
  | encodeSentinel =>
    obtain ⟨hc, rfl | ⟨-, rfl⟩⟩ := guarded_next_next h
    exacts [⟨hc, .inl rfl⟩, ⟨hc, .inr .encodeSentinel⟩]
  | decodeNext bs =>
    obtain ⟨hc, rfl | ⟨-, rfl⟩⟩ := guarded_next_next h
    exacts [⟨hc, .inl rfl⟩, ⟨hc, .inr .decodeNext⟩]
  | transportSend p =>
    obtain ⟨hc, hp, h⟩ := offered_next h
    obtain ⟨-, rfl | ⟨hr, rfl⟩⟩ := guarded_next_next h
    exacts [⟨hc, .inl rfl⟩, ⟨hc, .inr (.transportSend hp hr)⟩]
  | transportReceive =>
    refine ⟨takeFrom_valid h, ?_⟩
    obtain ⟨p, l, hq, rfl⟩ | ⟨-, rfl⟩ := takeFrom_next h
    exacts [.inr (.transportReceive hq), .inl rfl]
  | postInbound p =>
    obtain ⟨hc, hp, h⟩ := offered_next h
    obtain ⟨-, rfl | ⟨hr, rfl⟩⟩ := guarded_next_next h
    exacts [⟨hc, .inl rfl⟩, ⟨hc, .inr (.postInbound hp hr)⟩]
  | nextOutbound =>
    refine ⟨takeFrom_valid h, ?_⟩
    obtain ⟨p, l, hq, rfl⟩ | ⟨-, rfl⟩ := takeFrom_next h
    exacts [.inr (.nextOutbound hq), .inl rfl]
  | receiveForTest =>
    refine ⟨takeFrom_valid h, ?_⟩
    obtain ⟨p, l, hq, rfl⟩ | ⟨-, rfl⟩ := takeFrom_next h
    exacts [.inr (.receiveForTest hq), .inl rfl]
  | receiveForWifiCtrl =>
    refine ⟨takeFrom_valid h, ?_⟩
    obtain ⟨p, l, hq, rfl⟩ | ⟨-, rfl⟩ := takeFrom_next h
    exacts [.inr (.receiveForWifiCtrl hq), .inl rfl]
  | submitOutbound p =>
    obtain ⟨hc, hp, h⟩ := offered_next h
    obtain ⟨-, rfl | ⟨hr, rfl⟩⟩ := guarded_next_next h
    exacts [⟨hc, .inl rfl⟩, ⟨hc, .inr (.submitOutbound hp hr)⟩]
  | sigRaise x =>
    obtain ⟨hc, rfl | ⟨-, rfl⟩⟩ := guarded_next_next h
    exacts [⟨hc, .inl rfl⟩, ⟨hc, .inr .sigRaise⟩]
  | sigWait m =>
    obtain ⟨hc, rfl | ⟨hg, rfl⟩⟩ := guarded_next_next h
    exacts [⟨hc, .inl rfl⟩, ⟨hc, .inr (.sigWait hg)⟩]
  | sigPoll =>
    obtain ⟨hc, rfl | ⟨-, rfl⟩⟩ := guarded_next_next h
    exacts [⟨hc, .inl rfl⟩, ⟨hc, .inr .sigPoll⟩]
  | rxDeliver =>
    obtain ⟨hc, ⟨h1, h2, h3, h4, rfl⟩ | ⟨-, rfl⟩⟩ := deliver_next h
    exacts [⟨hc, .inr (.rxDeliver h1 h2 h3 h4)⟩, ⟨hc, .inl rfl⟩]
  | txTick =>
    obtain ⟨hc, rfl | ⟨-, rfl⟩⟩ := guarded_next_next h
    · exact ⟨hc, .inl rfl⟩
    · refine ⟨hc, ?_⟩
      split
      · rename_i hg; exact .inr (.txTick hg.1 hg.2)
      · exact .inl rfl
  | txDelayExpire =>
    obtain ⟨hc, rfl | ⟨⟨h1, h2⟩, rfl⟩⟩ := guarded_next_next h
    exacts [⟨hc, .inl rfl⟩, ⟨hc, .inr (.txDelayExpire h1 h2)⟩]
  | txEmitByte =>
    simp only [exec, execTxEmitByte] at h
    split at h
    · have := blocked_next h; exact ⟨this.1, .inl this.2⟩
    · rename_i b rest hb
      obtain ⟨hc, rfl | ⟨-, rfl⟩⟩ := guarded_next_next h
      exacts [⟨hc, .inl rfl⟩, ⟨hc, .inr (.txEmitByte hb)⟩]
  | txSyncEmitDone =>
    obtain ⟨hc, rfl | ⟨⟨h1, h2⟩, rfl⟩⟩ := guarded_next_next h
    exacts [⟨hc, .inl rfl⟩, ⟨hc, .inr (.txSyncEmitDone h1 h2)⟩]
  | txSyncPollHit =>
    obtain ⟨hc, rfl | ⟨⟨h1, h2, h3⟩, rfl⟩⟩ := guarded_next_next h
    exacts [⟨hc, .inl rfl⟩, ⟨hc, .inr (.txSyncPollHit h1 h2 h3)⟩]
  | txSyncPollMiss =>
    obtain ⟨hc, rfl | ⟨⟨h1, h2, h3⟩, rfl⟩⟩ := guarded_next_next h
    exacts [⟨hc, .inl rfl⟩, ⟨hc, .inr (.txSyncPollMiss h1 h2 h3)⟩]
  | txCheckEmpty =>
    obtain ⟨hc, rfl | ⟨⟨h1, h2⟩, rfl⟩⟩ := guarded_next_next h
    exacts [⟨hc, .inl rfl⟩, ⟨hc, .inr (.txCheckEmpty h1 h2)⟩]
  | txCheckDeq =>
    simp only [exec, execTxCheckDeq] at h
    split at h
    · have := blocked_next h; exact ⟨this.1, .inl this.2⟩
    · rename_i p u hq
      obtain ⟨l, hl, rfl⟩ := State.deq_eq_some hq
      obtain ⟨hc, rfl | ⟨h1, rfl⟩⟩ := guarded_next_next h
      exacts [⟨hc, .inl rfl⟩, ⟨hc, .inr (.txCheckDeq h1 hl)⟩]
  | txIdleWakeGrant =>
    obtain ⟨hc, rfl | ⟨⟨h1, h2⟩, rfl⟩⟩ := guarded_next_next h
    · exact ⟨hc, .inl rfl⟩
    · refine ⟨hc, .inr ?_⟩
      simpa [State.loadSent, State.waited] using Fires.txIdleWakeGrant h1 h2
  | txIdleWakeOutbound =>
    obtain ⟨hc, rfl | ⟨⟨h1, h2, h3⟩, rfl⟩⟩ := guarded_next_next h
    · exact ⟨hc, .inl rfl⟩
    · refine ⟨hc, .inr ?_⟩
      simpa [State.waited] using Fires.txIdleWakeOutbound h1 h2 h3
  | txIdleEmitDone =>
    obtain ⟨hc, ⟨⟨h1, h2⟩, rfl⟩ | ⟨-, rfl⟩⟩ := emitDone_next h
    exacts [⟨hc, .inr (.txIdleEmitDone h1 h2)⟩, ⟨hc, .inl rfl⟩]
  | txHoldWakeGrant =>
    obtain ⟨hc, rfl | ⟨⟨h1, h2, h3⟩, rfl⟩⟩ := guarded_next_next h
    · exact ⟨hc, .inl rfl⟩
    · refine ⟨hc, .inr ?_⟩
      simpa [State.loadSent, State.waited] using Fires.txHoldWakeGrant h1 h2 h3
  | txHoldWakeBoth =>
    obtain ⟨hc, rfl | ⟨⟨h1, h2, h3⟩, rfl⟩⟩ := guarded_next_next h
    · exact ⟨hc, .inl rfl⟩
    · refine ⟨hc, .inr ?_⟩
      simpa [State.loadSent, State.waited] using Fires.txHoldWakeBoth h1 h2 h3
  | txHoldWakeSend =>
    simp only [exec, execTxHoldWakeSend] at h
    split at h
    · have := blocked_next h; exact ⟨this.1, .inl this.2⟩
    · rename_i p hp
      obtain ⟨hc, rfl | ⟨⟨h1, h2, h3⟩, rfl⟩⟩ := guarded_next_next h
      · exact ⟨hc, .inl rfl⟩
      · refine ⟨hc, .inr ?_⟩
        simpa [State.loadData, State.waited] using Fires.txHoldWakeSend hp h1 h2 h3
  | txGrantEmitDoneBack =>
    simp only [exec, execTxGrantEmitDoneBack] at h
    split at h
    · have := blocked_next h; exact ⟨this.1, .inl this.2⟩
    · rename_i hg
      obtain ⟨hc, ⟨⟨h1, h2⟩, rfl⟩ | ⟨-, rfl⟩⟩ := emitDone_next h
      exacts [⟨hc, .inr (.txGrantEmitDoneBack h1 h2 (by simpa using hg))⟩, ⟨hc, .inl rfl⟩]
  | txGrantEmitDoneGo =>
    simp only [exec, execTxGrantEmitDoneGo] at h
    split at h
    · have := blocked_next h; exact ⟨this.1, .inl this.2⟩
    · rename_i p hp
      obtain ⟨hc, rfl | ⟨⟨h1, h2, h3⟩, rfl⟩⟩ := guarded_next_next h
      exacts [⟨hc, .inl rfl⟩, ⟨hc, .inr (.txGrantEmitDoneGo hp h1 h2 h3)⟩]
  | txDataEmitDone =>
    obtain ⟨hc, rfl | ⟨⟨h1, h2⟩, rfl⟩⟩ := guarded_next_next h
    exacts [⟨hc, .inl rfl⟩, ⟨hc, .inr (.txDataEmitDone h1 h2)⟩]
  | rxJunk =>
    refine ⟨fromLine_valid (fun b u v hu => (takeJunk_next hu).1) h, ?_⟩
    obtain ⟨b, rest, hr, ha, h⟩ | rfl := fromLine_next h
    · simp only [decide_eq_true_eq] at ha
      obtain ⟨-, ⟨-, rfl⟩ | ⟨hx, -⟩⟩ := takeJunk_next h
      exacts [.inr (.rxJunk hr ha.1 ha.2), absurd ha hx]
    · exact .inl rfl
  | rxStart =>
    refine ⟨fromLine_valid (fun b u v hu => (takeStart_next hu).1) h, ?_⟩
    obtain ⟨b, rest, hr, ha, h⟩ | rfl := fromLine_next h
    · simp only [decide_eq_true_eq] at ha
      obtain ⟨-, ⟨-, rfl⟩ | ⟨hx, -⟩⟩ := takeStart_next h
      exacts [.inr (.rxStart (ha.2 ▸ hr) ha.1), absurd ha hx]
    · exact .inl rfl
  | rxLenSentinel =>
    refine ⟨fromLine_valid (fun b u v hu => (takeLen0_next hu).1) h, ?_⟩
    obtain ⟨b, rest, hr, ha, h⟩ | rfl := fromLine_next h
    · simp only [decide_eq_true_eq] at ha
      obtain ⟨-, ⟨-, rfl⟩ | ⟨hx, -⟩⟩ := takeLen0_next h
      exacts [.inr (.rxLenSentinel (ha.2 ▸ hr) ha.1), absurd ha hx]
    · exact .inl rfl
  | rxLenData =>
    refine ⟨fromLine_valid (fun b u v hu => (takeLenOk_next hu).1) h, ?_⟩
    obtain ⟨b, rest, hr, ha, h⟩ | rfl := fromLine_next h
    · simp only [decide_eq_true_eq] at ha
      obtain ⟨-, ⟨-, rfl⟩ | ⟨hx, -⟩⟩ := takeLenOk_next h
      exacts [.inr (.rxLenData hr ha.1 ha.2.1 ha.2.2), absurd ha hx]
    · exact .inl rfl
  | rxLenOver =>
    refine ⟨fromLine_valid (fun b u v hu => (takeLenOver_next hu).1) h, ?_⟩
    obtain ⟨b, rest, hr, ha, h⟩ | rfl := fromLine_next h
    · simp only [decide_eq_true_eq] at ha
      obtain ⟨-, ⟨-, rfl⟩ | ⟨hx, -⟩⟩ := takeLenOver_next h
      exacts [.inr (.rxLenOver hr ha.1 ha.2), absurd ha hx]
    · exact .inl rfl
  | rxDataByte =>
    refine ⟨fromLine_valid (fun b u v hu => (takeData_next hu).1) h, ?_⟩
    obtain ⟨b, rest, hr, ha, h⟩ | rfl := fromLine_next h
    · simp only [decide_eq_true_eq] at ha
      obtain ⟨-, ⟨-, hi, rfl⟩ | ⟨hx, -⟩⟩ := takeData_next h
      exacts [.inr (.rxDataByte hr ha hi), absurd ha hx]
    · exact .inl rfl
  | rtFetch =>
    simp only [exec, execRtFetch] at h
    split at h
    · have := blocked_next h; exact ⟨this.1, .inl this.2⟩
    · rename_i p u hq
      obtain ⟨l, hl, rfl⟩ := State.deq_eq_some hq
      obtain ⟨hc, rfl | ⟨h1, rfl⟩⟩ := guarded_next_next h
      exacts [⟨hc, .inl rfl⟩, ⟨hc, .inr (.rtFetch h1 hl)⟩]
  | rtRouteTest =>
    obtain ⟨hc, ⟨p, h1, h2, h3, rfl⟩ | rfl⟩ := routeHeld_next h
    exacts [⟨hc, .inr (.rtRouteTest h1 h2 h3)⟩, ⟨hc, .inl rfl⟩]
  | rtRouteWifi =>
    obtain ⟨hc, ⟨p, h1, h2, h3, rfl⟩ | rfl⟩ := routeHeld_next h
    exacts [⟨hc, .inr (.rtRouteWifi h1 h2 h3)⟩, ⟨hc, .inl rfl⟩]
  | rtDrop =>
    obtain ⟨hc, ⟨p, h1, h2, rfl⟩ | rfl⟩ := dropHeld_next h
    exacts [⟨hc, .inr (.rtDrop h1 h2)⟩, ⟨hc, .inl rfl⟩]
  | buFetch =>
    simp only [exec, execBuFetch] at h
    split at h
    · have := blocked_next h; exact ⟨this.1, .inl this.2⟩
    · rename_i p u hq
      obtain ⟨l, hl, rfl⟩ := State.deq_eq_some hq
      obtain ⟨hc, rfl | ⟨h1, rfl⟩⟩ := guarded_next_next h
      exacts [⟨hc, .inl rfl⟩, ⟨hc, .inr (.buFetch h1 hl)⟩]
  | buPost =>
    simp only [exec, execBuPost] at h
    split at h
    · have := blocked_next h; exact ⟨this.1, .inl this.2⟩
    · rename_i p hp
      obtain ⟨hc, rfl | ⟨h1, rfl⟩⟩ := guarded_next_next h
      exacts [⟨hc, .inl rfl⟩, ⟨hc, .inr (.buPost hp h1)⟩]
  | bdFetch =>
    simp only [exec, execBdFetch] at h
    split at h
    · have := blocked_next h; exact ⟨this.1, .inl this.2⟩
    · rename_i p u hq
      obtain ⟨l, hl, rfl⟩ := State.deq_eq_some hq
      obtain ⟨hc, rfl | ⟨h1, rfl⟩⟩ := guarded_next_next h
      exacts [⟨hc, .inl rfl⟩, ⟨hc, .inr (.bdFetch h1 hl)⟩]
  | bdSend =>
    simp only [exec, execBdSend] at h
    split at h
    · have := blocked_next h; exact ⟨this.1, .inl this.2⟩
    · rename_i p hp
      obtain ⟨hc, rfl | ⟨h1, rfl⟩⟩ := guarded_next_next h
      exacts [⟨hc, .inl rfl⟩, ⟨hc, .inr (.bdSend hp h1)⟩]

end Sys2Proof.Machine
end

