-- ==== Sys2Proof/Laws/PerInstr.lean ====
section
/-! SUPPORT. A law made per instruction: the encoding of a well-formed instruction is never longer than the longest
frame, `MTU + 2` bytes (spec/30_encoding.md R96). -/

namespace Sys2Proof.Laws.EncodingLength

open Sys2Proof

/-- R96, for one instruction. -/
def Statement (i : Instr) : Prop :=
  ∀ (c : Config) (bs : List Byte), c.Valid → WellFormed c i = true → encode c i = some bs → bs.length ≤ c.mtu + 2

/-- A row without bits has no encoding to bound. -/
theorem of_no_bits {i : Instr} (h : ∀ c, encode c i = none) : Statement i := by
  intro c bs _ _ he
  rw [h c] at he
  cases he

/-- A row of at most two bytes meets the bound. -/
theorem of_short {i : Instr} (h : ∀ c bs, encode c i = some bs → bs.length ≤ 2) : Statement i := by
  intro c bs _ _ he
  have := h c bs he
  omega

theorem sentinel : Statement .sentinel := of_short fun _ _ h => by cases h; simp [sent]
theorem dataFrame (p : Packet) : Statement (.dataFrame p) := by
  intro c bs _ hw he
  simp only [WellFormed, decide_eq_true_eq] at hw
  cases he
  simpa [frameOf] using hw.2
theorem junk (b : Byte) : Statement (.junk b) := of_short fun _ _ h => by cases h; simp
theorem start : Statement .start := of_short fun _ _ h => by cases h; simp
theorem len0 : Statement .len0 := of_short fun _ _ h => by cases h; simp
theorem lenok (b : Byte) : Statement (.lenok b) := of_short fun _ _ h => by cases h; simp
theorem lenover (b : Byte) : Statement (.lenover b) := of_short fun _ _ h => by cases h; simp
theorem data (b : Byte) : Statement (.data b) := of_short fun _ _ h => by cases h; simp
theorem routeTest : Statement .routeTest := of_short fun _ _ h => by cases h; simp
theorem routeWifiCtrl : Statement .routeWifiCtrl := of_short fun _ _ h => by cases h; simp
theorem routeUnrouted (f : Option Byte) : Statement (.routeUnrouted f) := of_short fun _ _ h => by cases h; cases f <;> simp
theorem encodeData (p : Packet) : Statement (.encodeData p) := of_no_bits fun _ => rfl
theorem encodeSentinel : Statement .encodeSentinel := of_no_bits fun _ => rfl
theorem decodeNext (bs : List Byte) : Statement (.decodeNext bs) := of_no_bits fun _ => rfl
theorem transportSend (p : Packet) : Statement (.transportSend p) := of_no_bits fun _ => rfl
theorem transportReceive : Statement .transportReceive := of_no_bits fun _ => rfl
theorem postInbound (p : Packet) : Statement (.postInbound p) := of_no_bits fun _ => rfl
theorem nextOutbound : Statement .nextOutbound := of_no_bits fun _ => rfl
theorem receiveForTest : Statement .receiveForTest := of_no_bits fun _ => rfl
theorem receiveForWifiCtrl : Statement .receiveForWifiCtrl := of_no_bits fun _ => rfl
theorem submitOutbound (p : Packet) : Statement (.submitOutbound p) := of_no_bits fun _ => rfl
theorem sigRaise (x : SigBit) : Statement (.sigRaise x) := of_no_bits fun _ => rfl
theorem sigWait (m : SigSet) : Statement (.sigWait m) := of_no_bits fun _ => rfl
theorem sigPoll : Statement .sigPoll := of_no_bits fun _ => rfl
theorem rxDeliver : Statement .rxDeliver := of_no_bits fun _ => rfl
theorem txTick : Statement .txTick := of_no_bits fun _ => rfl
theorem txDelayExpire : Statement .txDelayExpire := of_no_bits fun _ => rfl
theorem txEmitByte : Statement .txEmitByte := of_no_bits fun _ => rfl
theorem txSyncEmitDone : Statement .txSyncEmitDone := of_no_bits fun _ => rfl
theorem txSyncPollHit : Statement .txSyncPollHit := of_no_bits fun _ => rfl
theorem txSyncPollMiss : Statement .txSyncPollMiss := of_no_bits fun _ => rfl
theorem txCheckEmpty : Statement .txCheckEmpty := of_no_bits fun _ => rfl
theorem txCheckDeq : Statement .txCheckDeq := of_no_bits fun _ => rfl
theorem txIdleWakeGrant : Statement .txIdleWakeGrant := of_no_bits fun _ => rfl
theorem txIdleWakeOutbound : Statement .txIdleWakeOutbound := of_no_bits fun _ => rfl
theorem txIdleEmitDone : Statement .txIdleEmitDone := of_no_bits fun _ => rfl
theorem txHoldWakeGrant : Statement .txHoldWakeGrant := of_no_bits fun _ => rfl
theorem txHoldWakeBoth : Statement .txHoldWakeBoth := of_no_bits fun _ => rfl
theorem txHoldWakeSend : Statement .txHoldWakeSend := of_no_bits fun _ => rfl
theorem txGrantEmitDoneBack : Statement .txGrantEmitDoneBack := of_no_bits fun _ => rfl
theorem txGrantEmitDoneGo : Statement .txGrantEmitDoneGo := of_no_bits fun _ => rfl
theorem txDataEmitDone : Statement .txDataEmitDone := of_no_bits fun _ => rfl
theorem rxJunk : Statement .rxJunk := of_no_bits fun _ => rfl
theorem rxStart : Statement .rxStart := of_no_bits fun _ => rfl
theorem rxLenSentinel : Statement .rxLenSentinel := of_no_bits fun _ => rfl
theorem rxLenData : Statement .rxLenData := of_no_bits fun _ => rfl
theorem rxLenOver : Statement .rxLenOver := of_no_bits fun _ => rfl
theorem rxDataByte : Statement .rxDataByte := of_no_bits fun _ => rfl
theorem rtFetch : Statement .rtFetch := of_no_bits fun _ => rfl
theorem rtRouteTest : Statement .rtRouteTest := of_no_bits fun _ => rfl
theorem rtRouteWifi : Statement .rtRouteWifi := of_no_bits fun _ => rfl
theorem rtDrop : Statement .rtDrop := of_no_bits fun _ => rfl
theorem buFetch : Statement .buFetch := of_no_bits fun _ => rfl
theorem buPost : Statement .buPost := of_no_bits fun _ => rfl
theorem bdFetch : Statement .bdFetch := of_no_bits fun _ => rfl
theorem bdSend : Statement .bdSend := of_no_bits fun _ => rfl

end Sys2Proof.Laws.EncodingLength
end

