-- ==== Sys2Proof/Laws/Step.lean ====
section
/-! SUPPORT. Everything one step of the machine can do, said once: `step_next`. Statements about `step` are case splits on it,
then on `fetch_some` where it matters which instruction the move attempts, and then on `exec_next` of Laws/Inversion.lean. -/

namespace Sys2Proof.Machine

open Sys2Proof

/-- A named instruction is attempted only where it may be fired by name, and in the state as it stands. -/
theorem fireNamed_some {i j : Instr} {s u : State} (h : fireNamed i s = some (j, u)) :
    fireable s.coupling i = true ∧ j = i ∧ u = s := by
  unfold fireNamed at h
  split at h
  · rename_i hf; cases h; exact ⟨hf, rfl, rfl⟩
  · cases h

/-- What a move attempts in `s`, and the state it is attempted in. -/
inductive Fetches (s : State) : Move → Instr → State → Prop where
  | tx : Fetches s (.agent .tx) (txTurn s) s
  | deliver : s.rxph = .deliver → Fetches s (.agent .rx) .rxDeliver s
  | byte {b rest i} : s.rxph ≠ .deliver → s.rxd = b :: rest → decodeByte s.rxph s.cfg.mtu b = .ok i →
      Fetches s (.agent .rx) i { s with rxd := rest }
  | rt : Fetches s (.agent .rt) (rtTurn s) s
  | bu : s.coupling = .bridged → Fetches s (.agent .bu) (buTurn s) s
  | bd : s.coupling = .bridged → Fetches s (.agent .bd) (bdTurn s) s
  | frame {i rest} : decodeFrame s.rxph s.cfg.mtu s.rxd = .ok (i, rest) → Fetches s .frame i { s with rxd := rest }
  | fire {i} : fireable s.coupling i = true → Fetches s (.fire i) i s

/-- A bridge's step may be fired in the composed block alone. -/
theorem fireable_buTurn (c : Coupling) (s : State) : fireable c (buTurn s) = decide (c = .bridged) := by
  unfold buTurn; split <;> rfl

/-- A bridge's step may be fired in the composed block alone. -/
theorem fireable_bdTurn (c : Coupling) (s : State) : fireable c (bdTurn s) = decide (c = .bridged) := by
  unfold bdTurn; split <;> rfl

theorem toOption_eq_some {α ε : Type} {x : Except ε α} {a : α} (h : x.toOption = some a) : x = .ok a := by
  cases x <;> cases h; rfl

/-- The inversion of `fetch`. -/
theorem fetch_some {m : Move} {s u : State} {i : Instr} (h : fetch m s = some (i, u)) : Fetches s m i u := by
  cases m with
  | agent a =>
    cases a with
    | rx =>
      simp only [fetch, rxTurn] at h
      split at h
      · rename_i hd; cases h; exact .deliver hd
      · cases h
      · rename_i hr hn
        obtain ⟨j, hj, hu⟩ := Option.map_eq_some_iff.1 h
        cases hu; exact .byte hn hr (toOption_eq_some hj)
    | tx => cases h; exact .tx
    | rt => cases h; exact .rt
    | bu =>
      obtain ⟨hf, rfl, rfl⟩ := fireNamed_some h
      exact .bu (of_decide_eq_true (fireable_buTurn _ u ▸ hf))
    | bd =>
      obtain ⟨hf, rfl, rfl⟩ := fireNamed_some h
      exact .bd (of_decide_eq_true (fireable_bdTurn _ u ▸ hf))
  | frame =>
    obtain ⟨x, hx, hu⟩ := Option.map_eq_some_iff.1 h
    cases hu; exact .frame (toOption_eq_some hx)
  | fire j => obtain ⟨hf, rfl, rfl⟩ := fireNamed_some h; exact .fire hf
  | arrive b => cases h
  | reset => cases h

/-- Fetching changes nothing but the bytes that wait at RXD. -/
theorem fetch_state {m : Move} {s u : State} {i : Instr} (h : fetch m s = some (i, u)) :
    ∃ l, u = { s with rxd := l } := by
  cases fetch_some h <;> exact ⟨_, rfl⟩

/-- The moves that attempt no instruction: a byte arrives, reset is applied, or nobody moves. -/
theorem environment_next {m : Move} {s t : State} (h : environment m s = .next t) :
    s.cfg.Valid ∧ ((∃ b, m = .arrive b ∧ t = { s with rxd := s.rxd ++ [b] }) ∨ (m = .reset ∧ t = applyReset s) ∨
      t = s) := by
  cases m with
  | arrive b =>
    obtain ⟨hc, rfl | ⟨-, rfl⟩⟩ := guarded_next_next h
    exacts [⟨hc, .inr (.inr rfl)⟩, ⟨hc, .inl ⟨b, rfl, rfl⟩⟩]
  | reset =>
    obtain ⟨hc, rfl | ⟨-, rfl⟩⟩ := guarded_next_next h
    exacts [⟨hc, .inr (.inr rfl)⟩, ⟨hc, .inr (.inl ⟨rfl, rfl⟩)⟩]
  | agent a => exact ⟨(blocked_next h).1, .inr (.inr (blocked_next h).2)⟩
  | frame => exact ⟨(blocked_next h).1, .inr (.inr (blocked_next h).2)⟩
  | fire i => exact ⟨(blocked_next h).1, .inr (.inr (blocked_next h).2)⟩

/-- The inversion of `step`. The move is used up; then nothing else changes, a byte arrives, reset is applied, or the
fetched instruction is carried out. -/
theorem step_next {s t : State} (h : step s = .next t) :
    s.cfg.Valid ∧ ((s.sched = [] ∧ t = s) ∨ ∃ m ms, s.sched = m :: ms ∧
      (t = { s with sched := ms } ∨ (∃ b, m = .arrive b ∧ t = { s with sched := ms, rxd := s.rxd ++ [b] }) ∨
        (m = .reset ∧ t = applyReset { s with sched := ms }) ∨
        ∃ i l, fetch m { s with sched := ms } = some (i, { s with sched := ms, rxd := l }) ∧
          exec i { s with sched := ms, rxd := l } = .next t)) := by
  unfold step at h
  split at h
  · rename_i hs
    exact ⟨(blocked_next h).1, .inl ⟨hs, (blocked_next h).2⟩⟩
  · rename_i m ms hs
    split at h
    · rename_i i u hf
      obtain ⟨l, rfl⟩ := fetch_state hf
      exact ⟨(exec_next h).1, .inr ⟨m, ms, hs, .inr (.inr (.inr ⟨i, l, hf, h⟩))⟩⟩
    · obtain ⟨hc, ⟨b, rfl, rfl⟩ | ⟨rfl, rfl⟩ | rfl⟩ := environment_next h
      · exact ⟨hc, .inr ⟨_, ms, hs, .inr (.inl ⟨b, rfl, rfl⟩)⟩⟩
      · exact ⟨hc, .inr ⟨_, ms, hs, .inr (.inr (.inl ⟨rfl, rfl⟩))⟩⟩
      · exact ⟨hc, .inr ⟨m, ms, hs, .inl rfl⟩⟩

end Sys2Proof.Machine
end

