-- ==== Sys2Proof/Tests/Slice0.lean ====
section
/-! SUPPORT. Tests: well-formedness, words written out from the spec's encodings, one step of each instruction with the
results of spec/95_test_vectors.md (the vector's name stands before each), and one witness for each statement of
Certificates/Slice0/Obligations.lean that has hypotheses. -/

namespace Sys2Proof.Tests

open Sys2Proof Sys2Proof.Machine

/-! ### Helpers -/

/-- One thing read off a next state. -/
def after {α : Type} (r : Result) (f : State → α) : Option α :=
  match r with
  | .next t => some (f t)
  | .fault _ => none
  | .refused _ => none

/-- The reason of a refusal. -/
def refusal (r : Result) : Option Refusal :=
  match r with
  | .next _ => none
  | .fault _ => none
  | .refused e => some e

/-- The reset state with a signal group `(PGS, OWE, HOB)`. -/
def sigs (p o h : Bool) : State := { State.reset with sig := { pgs := p, owe := o, hob := h } }

/-- The signal bits in the order of the vectors. -/
def bits (s : State) : Bool × Bool × Bool := (s.sig.pgs, s.sig.owe, s.sig.hob)

/-- The RX engine in a phase, with a byte at RXD. -/
def rxAt (ph : RxPhase) (b : Byte) : State := { State.reset with rxph := ph, rxd := [b] }

/-- The RX engine in RX_DATA. -/
def rxMid (len : Byte) (idx : Nat) (b : Byte) : State := { rxAt .data b with rxlen := len, rxidx := idx }

/-- The TX engine in a phase, with signal bits. -/
def txAt (ph : TxPhase) (p o h : Bool) : State := { sigs p o h with txph := ph, txtimer := 0 }

/-- A state whose next move is `m`, with bytes at RXD. -/
def moving (m : Move) (ph : RxPhase) (bs : List Byte) : State :=
  { State.reset with sched := [m], rxph := ph, rxd := bs }

/-- `p` of part 2.5. -/
def pkt : Packet := [0x05#8, 0x01#8, 0xAA#8]

/-- `t` of part 2.7. -/
def tPkt : Packet := [0x00#8, 0x01#8, 0xA1#8]

/-- `w` of part 2.7. -/
def wPkt : Packet := [0x00#8, 0x02#8, 0xB1#8]

/-- `u` of part 2.7. -/
def uPkt : Packet := [0x00#8, 0x07#8, 0xC1#8]

/-- A packet of `n` zero bytes. -/
def zeros (n : Nat) : Packet := List.replicate n 0x00#8

/-! ### Well-formedness: an ill-formed term for each check -/

theorem test_wellFormed_dataFrame_empty : WellFormed Config.ex (.dataFrame []) = false := by decide
theorem test_wellFormed_dataFrame_long : WellFormed Config.ex (.dataFrame (zeros 9)) = false := by decide
theorem test_wellFormed_junk : WellFormed Config.ex (.junk 0xFF#8) = false := by decide
theorem test_wellFormed_lenok_zero : WellFormed Config.ex (.lenok 0x00#8) = false := by decide
theorem test_wellFormed_lenok_over : WellFormed Config.ex (.lenok 0x09#8) = false := by decide
theorem test_wellFormed_lenover : WellFormed Config.ex (.lenover 0x08#8) = false := by decide
theorem test_wellFormed_routeUnrouted_test : WellFormed Config.ex (.routeUnrouted (some 0x01#8)) = false := by decide
theorem test_wellFormed_routeUnrouted_wifi : WellFormed Config.ex (.routeUnrouted (some 0x02#8)) = false := by decide
theorem test_wellFormed_encodeData : WellFormed Config.ex (.encodeData []) = false := by decide
theorem test_wellFormed_transportSend : WellFormed Config.ex (.transportSend (zeros 9)) = false := by decide
theorem test_wellFormed_postInbound : WellFormed Config.ex (.postInbound []) = false := by decide
theorem test_wellFormed_submitOutbound : WellFormed Config.ex (.submitOutbound (zeros 9)) = false := by decide

/-! ### Words written out from spec/30_encoding.md R90, R100 and spec/20_memory.md R69 -/

theorem test_decode_sentinel : decodeTableWord 16 0b1111111100000000 = some .sentinel := by decide
/-- V-DEC-2: `FF 03 05 01 AA`. -/
theorem test_decode_dataFrame :
    decodeTableWord 40 0b1111111100000011000001010000000110101010 = some (.dataFrame pkt) := by decide
/-- V-DEC-11: a length equal to MTU. -/
theorem test_decode_dataFrame_mtu :
    decodeFrame .hunt 8 (0b11111111#8 :: 0b00001000#8 :: zeros 8) = .ok (.dataFrame (zeros 8), []) := by decide
theorem test_decode_junk : decodeByte .hunt 8 0b00010010#8 = .ok (.junk 0x12#8) := by decide
theorem test_decode_start : decodeTableWord 8 0b11111111 = some .start := by decide
theorem test_decode_len0 : decodeTableWord 8 0b00000000 = some .len0 := by decide
theorem test_decode_lenok : decodeByte .len 8 0b00001000#8 = .ok (.lenok 0x08#8) := by decide
theorem test_decode_lenover : decodeByte .len 8 0b00001001#8 = .ok (.lenover 0x09#8) := by decide
theorem test_decode_data : decodeTableWord 8 0b01011010 = some (.data 0x5A#8) := by decide
theorem test_decode_routeTest : decodeRoute Config.ex (some 0b00000001#8) = .routeTest := by decide
theorem test_decode_routeWifiCtrl : decodeRoute Config.ex (some 0b00000010#8) = .routeWifiCtrl := by decide
theorem test_decode_routeUnrouted : decodeRoute Config.ex (some 0b00000111#8) = .routeUnrouted (some 0x07#8) := by decide
theorem test_decode_route_short : decodeRoute Config.ex (fnOf [0x01#8]) = .routeUnrouted none := by decide
theorem test_decode_notReady : decodeByte .deliver 8 0xFF#8 = .error .notReady := by decide
theorem test_decode_overLength : decodeFrame .hunt 8 [0xFF#8, 0x09#8] = .error .overLength := by decide
theorem test_decode_incomplete : decodeFrame .hunt 8 [0xFF#8, 0x03#8, 0x01#8] = .error .incomplete := by decide
theorem test_decode_notStart : decodeFrame .hunt 8 [0x12#8] = .error .notStart := by decide
theorem test_decode_notAtBoundary : decodeFrame .len 8 sent = .error .notAtBoundary := by decide
theorem test_decode_noByte : decodeFrame .hunt 8 [] = .error .noByte := by decide

/-- `withFetchWord` and `step`: the placed frame runs as the first instruction after reset. -/
theorem test_step_sentinel :
    after (step (State.reset.withFetchWord 16 0xFF00)) bits = some (true, false, false) := by decide
theorem test_step_dataFrame :
    after (step (State.reset.withFetchWord 40 0xFF030501AA)) State.tiq = some [pkt] := by decide
theorem test_step_start : after (step (State.reset.withFetchWord 8 0xFF)) State.rxph = some .len := by decide
theorem test_step_data : after (step (State.reset.withFetchWord 8 0x5A)) State.rxbuf = some (0x5A#8 :: zeros 7) := by decide

/-! ### The frame codec as functions (parts 2.1, 2.2) -/

/-- V-ENC-2. -/
theorem test_encodeData :
    after (exec (.encodeData pkt) State.reset) State.out =
      some [.encoded [0xFF#8, 0x03#8, 0x05#8, 0x01#8, 0xAA#8]] := by decide
/-- V-ENC-0. -/
theorem test_encodeData_empty : refusal (exec (.encodeData []) State.reset) = some .notAPacket := by decide
/-- V-ENC-5. -/
theorem test_encodeSentinel :
    after (exec .encodeSentinel State.reset) State.out = some [.encoded [0xFF#8, 0x00#8]] := by decide
/-- V-DEC-7. -/
theorem test_decodeNext_overlength :
    after (exec (.decodeNext [0xFF#8, 0x09#8, 0xFF#8, 0x02#8, 0x01#8, 0x02#8]) State.reset) State.out =
      some [.silent (.overlength 0x09#8), .decoded (some (.data [0x01#8, 0x02#8], []))] := by decide
/-- V-DEC-8. -/
theorem test_decodeNext_noReuse :
    decodeNext 8 [0xFF#8, 0xFF#8, 0x00#8, 0xFF#8, 0x00#8] = some (.sentinel, []) := by decide

/-! ### The RX engine (part 2.3): the rows by byte class, then the steps that take the byte from RXD -/

/-- V-RX-1. -/
theorem test_junk :
    after (exec (.junk 0x12#8) State.reset) (fun t => (t.rxph, t.out)) =
      some (.hunt, [.silent (.framingError 0x12#8)]) := by decide
/-- V-RX-3. -/
theorem test_start : after (exec .start State.reset) State.rxph = some .len := by decide
/-- V-RX-5. -/
theorem test_len0 :
    after (exec .len0 { sigs true false false with rxph := .len }) (fun t => (bits t, t.rxph)) =
      some ((true, false, false), .hunt) := by decide
/-- V-RX-7. -/
theorem test_lenok :
    after (exec (.lenok 0x08#8) { rxMid 0x01#8 1 0x00#8 with rxph := .len }) (fun t => (t.rxlen, t.rxidx, t.rxph)) =
      some (0x08#8, 0, .data) := by decide
/-- V-RX-9. -/
theorem test_lenover :
    after (exec (.lenover 0xFF#8) { State.reset with rxph := .len }) (fun t => (t.rxph, t.rxlen, t.out)) =
      some (.hunt, 0x00#8, [.silent (.overlength 0xFF#8)]) := by decide
/-- V-RX-11. -/
theorem test_data :
    after (exec (.data 0x0C#8) (rxMid 0x03#8 2 0x77#8)) (fun t => (t.rxbuf[2]?, t.rxidx, t.rxph, t.rxd)) =
      some (some 0x0C#8, 3, .deliver, [0x77#8]) := by decide
/-- V-RX-2. -/
theorem test_rxJunk :
    after (exec .rxJunk (rxAt .hunt 0x00#8)) (fun t => (t.rxd, t.out)) =
      some ([], [.silent (.framingError 0x00#8)]) := by decide
/-- V-RX-3. -/
theorem test_rxStart : after (exec .rxStart (rxAt .hunt 0xFF#8)) (fun t => (t.rxph, t.rxd)) = some (.len, []) := by decide
/-- V-RX-4. -/
theorem test_rxLenSentinel :
    after (exec .rxLenSentinel (rxAt .len 0x00#8)) (fun t => (bits t, t.rxph)) =
      some ((true, false, false), .hunt) := by decide
/-- V-RX-6. -/
theorem test_rxLenData :
    after (exec .rxLenData (rxAt .len 0x03#8)) (fun t => (t.rxlen, t.rxidx, t.rxph)) = some (0x03#8, 0, .data) := by decide
/-- V-RX-8. -/
theorem test_rxLenOver :
    after (exec .rxLenOver (rxAt .len 0x09#8)) (fun t => (t.rxph, t.rxlen, t.out)) =
      some (.hunt, 0x00#8, [.silent (.overlength 0x09#8)]) := by decide
/-- V-RX-12. -/
theorem test_rxDataByte :
    after (exec .rxDataByte (rxMid 0x01#8 0 0xFF#8)) (fun t => (t.rxbuf.head?, t.rxidx, t.rxph)) =
      some (some 0xFF#8, 1, .deliver) := by decide
/-- V-RX-15. -/
theorem test_rxDeliver :
    after (exec .rxDeliver { sigs false true false with
        rxph := .deliver, rxlen := 0x03#8, rxbuf := [0x0A#8, 0xFF#8, 0x0C#8] ++ zeros 5, tiq := [pkt] })
      (fun t => (t.tiq, bits t, t.rxph)) =
      some ([pkt, [0x0A#8, 0xFF#8, 0x0C#8]], (false, true, false), .hunt) := by decide
/-- V-RX-13. -/
theorem test_rxDeliver_full :
    after (exec .rxDeliver { State.reset with rxph := .deliver, rxlen := 0x03#8, tiq := [pkt, pkt] })
      (fun t => (t.tiq, t.rxph)) = some ([pkt, pkt], .deliver) := by decide
/-- R94, R125. -/
theorem test_sentinel :
    after (exec .sentinel State.reset) (fun t => (bits t, t.rxph)) = some ((true, false, false), .hunt) := by decide
/-- P1, steps 3 to 8. -/
theorem test_dataFrame :
    after (exec (.dataFrame [0x0A#8, 0xFF#8, 0x0C#8]) State.reset) (fun t => (t.tiq, bits t, t.rxph, t.rxidx)) =
      some ([[0x0A#8, 0xFF#8, 0x0C#8]], (false, true, false), .hunt, 3) := by decide

/-! ### The signal primitives (part 2.4) -/

/-- V-SIG-2. -/
theorem test_sigRaise : after (exec (.sigRaise .owe) (sigs false true false)) bits = some (false, true, false) := by decide
/-- V-SIG-4. -/
theorem test_sigWait :
    after (exec (.sigWait idleSet) (sigs true false true)) (fun t => (bits t, t.out)) =
      some ((true, false, false), [.reported { pgs := false, owe := false, hob := true }]) := by decide
/-- V-SIG-3. -/
theorem test_sigWait_held :
    after (exec (.sigWait idleSet) (sigs true false false)) (fun t => (bits t, t.out)) =
      some ((true, false, false), []) := by decide
/-- V-SIG-7. -/
theorem test_sigPoll :
    after (exec .sigPoll (sigs true false false)) (fun t => (bits t, t.out)) =
      some ((true, false, false), [.polled true]) := by decide

/-- R182: a scheduled bare primitive reaches no bit and reports nothing. -/
theorem test_step_signalPrimitive :
    after (step (moving (.fire (.sigRaise .pgs)) .hunt [])) bits = some (false, false, false) ∧
    after (step (moving (.fire .sigPoll) .hunt [])) State.out = some [] := by decide

/-- R51, R240: a scheduled TRANSPORT_SEND reaches TEQ where the halves are cut apart, and not in the composed block. -/
theorem test_step_interface :
    after (step (moving (.fire (.transportSend pkt)) .hunt [])) State.teq = some [] ∧
    after (step { moving (.fire (.transportSend pkt)) .hunt [] with coupling := .cut }) State.teq = some [pkt] := by decide

/-- R247: no move puts a byte ahead of the one that waits. -/
theorem test_step_byteRow :
    after (step (moving (.fire .start) .hunt [0x12#8])) (fun t => (t.rxph, t.rxd)) = some (.hunt, [0x12#8]) ∧
    after (step (moving (.fire .rxStart) .hunt [0xFF#8, 0x12#8])) (fun t => (t.rxph, t.rxd)) =
      some (.len, [0x12#8]) := by decide

/-! ### The TX engine (part 2.5) -/

/-- V-TX-1. -/
theorem test_txTick : after (exec .txTick State.reset) State.txtimer = some 1 := by decide
/-- V-TX-2. -/
theorem test_txTick_zero : after (exec .txTick (txAt .delay false false false)) State.txtimer = some 0 := by decide
/-- V-TX-5. -/
theorem test_txDelayExpire :
    after (exec .txDelayExpire (txAt .delay true false false)) (fun t => (t.txout, t.txph)) =
      some ([0xFF#8, 0x00#8], .syncEmit) := by decide
/-- V-TX-7. -/
theorem test_txEmitByte :
    after (exec .txEmitByte { txAt .idleEmit false false false with txout := sent }) (fun t => (t.txout, t.out)) =
      some ([0x00#8], [.txd 0xFF#8]) := by decide
/-- V-TX-9. -/
theorem test_txSyncEmitDone :
    after (exec .txSyncEmitDone (txAt .syncEmit false false false)) (fun t => (t.txtimer, t.txph)) =
      some (3, .syncWait) := by decide
/-- V-TX-11. -/
theorem test_txSyncPollHit :
    after (exec .txSyncPollHit (txAt .syncWait true true true)) (fun t => (t.txph, bits t)) =
      some (.check, (true, true, true)) := by decide
/-- V-TX-12. -/
theorem test_txSyncPollMiss :
    after (exec .txSyncPollMiss (txAt .syncWait false true true)) (fun t => (t.txout, t.txph)) =
      some ([0xFF#8, 0x00#8], .syncEmit) := by decide
/-- V-TX-13. -/
theorem test_txCheckEmpty : after (exec .txCheckEmpty (txAt .check false false true)) State.txph = some .idleWait := by decide
/-- V-TX-14. -/
theorem test_txCheckDeq :
    after (exec .txCheckDeq { txAt .check false false true with teq := [pkt, wPkt] })
      (fun t => (t.txhold, t.teq, t.txph, bits t)) = some (some pkt, [wPkt], .holdWait, (false, false, true)) := by decide
/-- V-TX-16. -/
theorem test_txIdleWakeGrant :
    after (exec .txIdleWakeGrant (txAt .idleWait true true true)) (fun t => (bits t, t.txout, t.txph)) =
      some ((true, false, false), [0xFF#8, 0x00#8], .idleEmit) := by decide
/-- V-TX-17. -/
theorem test_txIdleWakeOutbound :
    after (exec .txIdleWakeOutbound (txAt .idleWait true false true)) (fun t => (bits t, t.txph)) =
      some ((true, false, false), .check) := by decide
/-- V-TX-18. -/
theorem test_txIdleWakeOutbound_held :
    after (exec .txIdleWakeOutbound (txAt .idleWait true false false)) State.txph = some .idleWait := by decide
/-- V-TX-19. -/
theorem test_txIdleEmitDone : after (exec .txIdleEmitDone (txAt .idleEmit false false false)) State.txph = some .check := by decide
/-- V-TX-20. -/
theorem test_txHoldWakeGrant :
    after (exec .txHoldWakeGrant { txAt .holdWait false true false with txhold := some pkt, txgo := true })
      (fun t => (t.sig.owe, t.txout, t.txgo, t.txhold)) =
      some (false, [0xFF#8, 0x00#8], false, some pkt) := by decide
/-- V-TX-21. -/
theorem test_txHoldWakeBoth :
    after (exec .txHoldWakeBoth { txAt .holdWait true true false with txhold := some pkt })
      (fun t => (bits t, t.txout, t.txgo, t.txph)) =
      some ((false, false, false), [0xFF#8, 0x00#8], true, .grantEmit) := by decide
/-- V-TX-22. -/
theorem test_txHoldWakeSend :
    after (exec .txHoldWakeSend { txAt .holdWait true false true with txhold := some pkt })
      (fun t => (bits t, t.txout, t.txph)) =
      some ((false, false, true), [0xFF#8, 0x03#8, 0x05#8, 0x01#8, 0xAA#8], .dataEmit) := by decide
/-- V-TX-23. -/
theorem test_txHoldWakeSend_held :
    after (exec .txHoldWakeSend { txAt .holdWait false false true with txhold := some pkt }) State.txph =
      some .holdWait := by decide
/-- V-TX-24. -/
theorem test_txGrantEmitDoneBack :
    after (exec .txGrantEmitDoneBack (txAt .grantEmit true false false)) State.txph = some .holdWait := by decide
/-- V-TX-25. -/
theorem test_txGrantEmitDoneGo :
    after (exec .txGrantEmitDoneGo { txAt .grantEmit false false false with txgo := true, txhold := some pkt })
      (fun t => (t.txout, t.txgo, t.txph)) =
      some ([0xFF#8, 0x03#8, 0x05#8, 0x01#8, 0xAA#8], false, .dataEmit) := by decide
/-- V-TX-26. -/
theorem test_txDataEmitDone :
    after (exec .txDataEmitDone { txAt .dataEmit false false false with txhold := some pkt })
      (fun t => (t.txhold, t.txph)) = some (none, .check) := by decide

/-! ### Transport, router, ports, bridges (parts 2.6 to 2.8) -/

/-- V-TR-1. -/
theorem test_transportSend :
    after (exec (.transportSend pkt) State.reset) (fun t => (t.teq, bits t)) = some ([pkt], (false, false, true)) := by decide
/-- V-TR-2, V-TR-4. -/
theorem test_transportSend_full :
    after (exec (.transportSend pkt) { State.reset with teq := [tPkt, wPkt] }) (fun t => (t.teq, bits t)) =
      some ([tPkt, wPkt], (false, false, false)) ∧
    refusal (exec (.transportSend (zeros 9)) { State.reset with teq := [tPkt, wPkt] }) = some .refusedInput := by decide
/-- V-TR-7. -/
theorem test_transportReceive :
    after (exec .transportReceive { State.reset with tiq := [pkt, wPkt] }) (fun t => (t.tiq, t.out)) =
      some ([wPkt], [.received pkt]) := by decide
/-- V-RT-1. -/
theorem test_postInbound :
    after (exec (.postInbound wPkt) { State.reset with riq := [tPkt] }) State.riq = some [tPkt, wPkt] := by decide
/-- V-RT-17. -/
theorem test_nextOutbound :
    after (exec .nextOutbound { State.reset with roq := [tPkt, wPkt] }) (fun t => (t.roq, t.out)) =
      some ([wPkt], [.outbound tPkt]) := by decide
/-- V-RT-12. -/
theorem test_receiveForTest :
    after (exec .receiveForTest { State.reset with fqTest := [tPkt, pkt], fqWifi := [wPkt] })
      (fun t => (t.fqTest, t.fqWifi, t.out)) = some ([pkt], [wPkt], [.recvTest tPkt]) := by decide
/-- V-RT-13. -/
theorem test_receiveForWifiCtrl :
    after (exec .receiveForWifiCtrl { State.reset with fqTest := [tPkt], fqWifi := [wPkt] })
      (fun t => (t.fqTest, t.fqWifi, t.out)) = some ([tPkt], [], [.recvWifi wPkt]) ∧
    after (exec .receiveForWifiCtrl { State.reset with fqTest := [tPkt] }) State.out = some [] := by decide
/-- V-RT-14, V-RT-16. -/
theorem test_submitOutbound :
    after (exec (.submitOutbound uPkt) State.reset) State.roq = some [uPkt] ∧
    refusal (exec (.submitOutbound []) State.reset) = some .refusedInput := by decide
/-- V-RT-3. -/
theorem test_rtFetch :
    after (exec .rtFetch { State.reset with riq := [tPkt, wPkt] }) (fun t => (t.rthold, t.riq)) =
      some (some tPkt, [wPkt]) := by decide
/-- V-RT-4. -/
theorem test_rtFetch_held :
    after (exec .rtFetch { State.reset with riq := [wPkt], rthold := some tPkt }) (fun t => (t.rthold, t.riq)) =
      some (some tPkt, [wPkt]) := by decide
/-- V-RT-11. -/
theorem test_rtRouteTest :
    after (exec .rtRouteTest { State.reset with rthold := some [0x07#8, 0x01#8] })
      (fun t => (t.fqTest, t.fqWifi, t.rthold)) = some ([[0x07#8, 0x01#8]], [], none) := by decide
/-- V-RT-6. -/
theorem test_rtRouteTest_full :
    after (exec .rtRouteTest { State.reset with rthold := some tPkt, fqTest := [pkt, pkt] })
      (fun t => (t.fqTest, t.rthold)) = some ([pkt, pkt], some tPkt) := by decide
/-- V-RT-7. -/
theorem test_rtRouteWifi :
    after (exec .rtRouteWifi { State.reset with rthold := some wPkt, fqWifi := [pkt] })
      (fun t => (t.fqWifi, t.fqTest, t.rthold)) = some ([pkt, wPkt], [], none) := by decide
/-- V-RT-9. -/
theorem test_rtDrop :
    after (exec .rtDrop { State.reset with rthold := some [0x01#8] }) (fun t => (t.rthold, t.fqTest, t.out.length)) =
      some (none, [], 1) := by decide
/-- V-RT-8: the record names the packet. -/
theorem test_rtDrop_record :
    after (exec .rtDrop { State.reset with rthold := some uPkt, fqTest := [pkt, pkt], fqWifi := [pkt, pkt] }) State.out =
      some [.log uPkt (Config.logText 0)] := rfl
/-- V-RT-5. -/
theorem test_routeTest :
    after (exec .routeTest { State.reset with rthold := some tPkt }) (fun t => (t.fqTest, t.rthold)) =
      some ([tPkt], none) := by decide
/-- V-RT-7. -/
theorem test_routeWifiCtrl :
    after (exec .routeWifiCtrl { State.reset with rthold := some wPkt, fqWifi := [pkt] }) State.fqWifi =
      some [pkt, wPkt] := by decide
/-- V-RT-10. -/
theorem test_routeUnrouted :
    after (exec (.routeUnrouted (some 0x07#8)) { State.reset with rthold := some [0x01#8, 0x07#8, 0x55#8] })
      (fun t => (t.rthold, t.fqTest, t.out.length)) = some (none, [], 1) := by decide
/-- V-BR-1. -/
theorem test_buFetch :
    after (exec .buFetch { State.reset with tiq := [pkt], riq := [tPkt, wPkt] }) (fun t => (t.buhold, t.tiq)) =
      some (some pkt, []) := by decide
/-- V-BR-3. -/
theorem test_buPost :
    after (exec .buPost { State.reset with buhold := some pkt, riq := [tPkt] }) (fun t => (t.riq, t.buhold)) =
      some ([tPkt, pkt], none) := by decide
/-- V-BR-2. -/
theorem test_buPost_full :
    after (exec .buPost { State.reset with buhold := some pkt, riq := [tPkt, wPkt] }) (fun t => (t.riq, t.buhold)) =
      some ([tPkt, wPkt], some pkt) := by decide
/-- V-BR-4. -/
theorem test_bdFetch :
    after (exec .bdFetch { State.reset with roq := [tPkt, wPkt] }) (fun t => (t.bdhold, t.roq)) =
      some (some tPkt, [wPkt]) := by decide
/-- V-BR-5. -/
theorem test_bdSend :
    after (exec .bdSend { State.reset with bdhold := some tPkt }) (fun t => (t.teq, bits t, t.bdhold)) =
      some ([tPkt], (false, false, true), none) := by decide
/-- V-BR-6. -/
theorem test_bdSend_full :
    after (exec .bdSend { State.reset with bdhold := some tPkt, teq := [pkt, pkt] }) (fun t => (t.teq, t.bdhold)) =
      some ([pkt, pkt], some tPkt) := by decide

/-! ### Witnesses: states and operands that meet the hypotheses of each statement, clause by clause -/

/-- The parameters of every witness are valid. -/
theorem witness_valid : State.reset.cfg.Valid := by decide

/-- A busy state: a sentinel is out, a data frame half written, a data frame half received. -/
def busy : State := { sigs true true true with
  txph := .dataEmit, txtimer := 0, txhold := some pkt, txout := [0x01#8, 0xAA#8]
  rxph := .data, rxlen := 0x08#8, rxidx := 7, rxd := [0x5A#8], sched := [.agent .rx], teq := [wPkt]
  out := [.txd 0xFF#8, .txd 0x00#8, .txd 0xFF#8, .txd 0x03#8, .txd 0x05#8] }

theorem busy_packets : PacketsSized busy := by
  refine ⟨fun q => by cases q <;> decide, fun p hp => ?_⟩
  obtain h | h | h | h := hp <;> cases h
  decide

/-- The busy state meets the invariants. -/
theorem witness_Inv : Inv busy where
  queues q := by cases q <;> decide
  packets := busy_packets
  hold := rfl
  txout := by unfold OutMatchesPhase; decide
  go := by unfold GoMatchesPhase; decide
  rx := by unfold RxRange; decide
  inert := ⟨rfl, rfl⟩
  line := ⟨[.sentinel], [0xFF#8, 0x03#8, 0x05#8], by simp [FrameOk], rfl,
    .inr ⟨by decide, .data pkt, ⟨by decide, by decide⟩, rfl⟩⟩
  timer := by unfold TimerRange; decide

theorem witness_ExternalResetRestoresResetState :
    busy.cfg.Valid ∧ { busy with sched := [.reset] }.sched = .reset :: [] := by decide

theorem witness_ResetMeetsInvariant :
    Config.ex.Valid ∧ 8 ≤ Config.ex.mtu ∧ (List.replicate 8 0x77#8).length = Config.ex.mtu := by decide

/-- A byte in RX_DATA; RX_DELIVER with a byte waiting; no byte. -/
theorem witness_StepRunsByteAtRxd :
    (busy.sched = .agent .rx :: [] ∧ busy.rxph ≠ .deliver ∧ busy.rxd = 0x5A#8 :: [] ∧
      decodeByte busy.rxph busy.cfg.mtu 0x5A#8 = .ok (.data 0x5A#8)) ∧
    ((moving (.agent .rx) .deliver [0xFF#8]).sched = .agent .rx :: [] ∧
      (moving (.agent .rx) .deliver [0xFF#8]).rxph = .deliver) ∧
    ((moving (.agent .rx) .len []).sched = .agent .rx :: [] ∧ (moving (.agent .rx) .len []).cfg.Valid ∧
      (moving (.agent .rx) .len []).rxph ≠ .deliver ∧ (moving (.agent .rx) .len []).rxd = []) := by decide

theorem witness_StepRunsFrameOnLine :
    (moving .frame .hunt [0xFF#8, 0x01#8, 0x5A#8, 0x12#8]).sched = .frame :: [] ∧
    decodeFrame (moving .frame .hunt [0xFF#8, 0x01#8, 0x5A#8, 0x12#8]).rxph Config.ex.mtu
      (moving .frame .hunt [0xFF#8, 0x01#8, 0x5A#8, 0x12#8]).rxd = .ok (.dataFrame [0x5A#8], [0x12#8]) ∧
    (moving .frame .hunt [0x12#8]).sched = .frame :: [] ∧ (moving .frame .hunt [0x12#8]).cfg.Valid ∧
    decodeFrame (moving .frame .hunt [0x12#8]).rxph Config.ex.mtu (moving .frame .hunt [0x12#8]).rxd =
      .error .notStart := by decide

/-- The reset state with `m` scheduled and the halves cut at the bridges. -/
def cutMoving (m : Move) : State := { moving m .hunt [] with coupling := .cut }

/-- Each kind of move heads some schedule, in both forms; what may be fired by name, and what may not, in each. -/
theorem witness_StepRunsScheduledInstruction :
    (∀ m ∈ [Move.fire .txTick, .agent .tx, .agent .rt, .agent .bu, .agent .bd, .arrive 0x12#8, .fire (.sigRaise .pgs)],
      (moving m .hunt []).sched = m :: [] ∧ (moving m .hunt []).coupling = .bridged ∧
      (cutMoving m).sched = m :: [] ∧ (cutMoving m).coupling = .cut ∧ (cutMoving m).cfg.Valid) ∧
    (moving (.fire .txTick) .hunt []).cfg.Valid ∧
    fireable .bridged .txTick = true ∧ fireable .bridged .buFetch = true ∧ fireable .bridged .nextOutbound = false ∧
    fireable .bridged (.data 0x5A#8) = false ∧ fireable .bridged (.sigRaise .pgs) = false ∧
    fireable .cut .txTick = true ∧ fireable .cut .buFetch = false ∧ fireable .cut .nextOutbound = true ∧
    fireable .cut (.data 0x5A#8) = false ∧ fireable .cut .sigPoll = false := by decide

/-- One broken constraint of R8 each. -/
theorem witness_BadParametersAreRefused :
    ¬ { Config.ex with mtu := 1 }.Valid ∧ ¬ { Config.ex with mtu := 256 }.Valid ∧ ¬ { Config.ex with capFq := 0 }.Valid ∧
    ¬ { Config.ex with fnTest := 0x02#8 }.Valid ∧ ¬ { Config.ex with tInit := 0 }.Valid := by decide

theorem witness_NonPacketsAreRefused :
    (([] : Packet) = [] ∨ State.reset.cfg.mtu < ([] : Packet).length) ∧
    (zeros 9 = [] ∨ State.reset.cfg.mtu < (zeros 9).length) := by decide

theorem witness_SentinelFrameEffect : State.reset.rxph = .hunt ∧ busy.rxph ≠ .hunt := by decide

/-- The reset state with `l` in TIQ. -/
def withTiq (l : List Packet) : State := { State.reset with tiq := l }

/-- Lengths 1 and MTU with one place left, MTU with none; a packet too long. -/
theorem witness_DataFrameEffect :
    ((withTiq [pkt]).cfg.Valid ∧ (withTiq [pkt]).rxbuf.length = (withTiq [pkt]).cfg.mtu ∧
      (withTiq [pkt]).rxph = .hunt ∧ IsPacket (withTiq [pkt]).cfg (zeros 1) ∧ IsPacket (withTiq [pkt]).cfg (zeros 8) ∧
      (withTiq [pkt]).tiq.length < (withTiq [pkt]).cfg.capTiq) ∧
    ((withTiq [pkt, pkt]).cfg.Valid ∧ (withTiq [pkt, pkt]).rxbuf.length = (withTiq [pkt, pkt]).cfg.mtu ∧
      (withTiq [pkt, pkt]).rxph = .hunt ∧ IsPacket (withTiq [pkt, pkt]).cfg (zeros 8) ∧
      ¬ (withTiq [pkt, pkt]).tiq.length < (withTiq [pkt, pkt]).cfg.capTiq) ∧
    (¬ ((withTiq []).rxph = .hunt ∧ IsPacket (withTiq []).cfg (zeros 9))) := by decide

/-- Each class at the edge of its range, and outside it. -/
theorem witness_ByteClassEffects :
    ((rxAt .hunt 0xFE#8).rxph = .hunt ∧ 0xFE#8 ≠ 0xFF#8) ∧ (¬ (State.reset.rxph = .hunt ∧ 0xFF#8 ≠ 0xFF#8)) ∧
    (busy.rxph ≠ .hunt ∧ busy.rxph ≠ .len) ∧
    ((rxAt .len 0x01#8).rxph = .len ∧ 1 ≤ (0x01#8).toNat ∧ (0x08#8).toNat ≤ (rxAt .len 0x01#8).cfg.mtu) ∧
    (¬ (1 ≤ (0x00#8).toNat)) ∧ (¬ ((0x09#8).toNat ≤ Config.ex.mtu)) ∧
    (Config.ex.mtu < (0x09#8).toNat ∧ ¬ Config.ex.mtu < (0x08#8).toNat) ∧
    (busy.rxph = .data ∧ busy.rxidx < busy.rxbuf.length) ∧ State.reset.rxph ≠ .data := by decide

/-- A byte of each class waits at RXD in its phase. -/
theorem witness_RxByteStepEffects :
    ((rxAt .hunt 0xFE#8).rxd = 0xFE#8 :: [] ∧ (rxAt .hunt 0xFE#8).rxph = .hunt ∧ 0xFE#8 ≠ 0xFF#8) ∧
    ((rxAt .hunt 0xFF#8).rxd = 0xFF#8 :: [] ∧ (rxAt .hunt 0xFF#8).rxph = .hunt) ∧
    ((rxAt .len 0x00#8).rxd = 0x00#8 :: [] ∧ (rxAt .len 0x00#8).rxph = .len) ∧
    ((rxAt .len 0x08#8).rxd = 0x08#8 :: [] ∧ 1 ≤ (0x08#8).toNat ∧ (0x08#8).toNat ≤ (rxAt .len 0x08#8).cfg.mtu) ∧
    ((rxAt .len 0x09#8).rxd = 0x09#8 :: [] ∧ (rxAt .len 0x09#8).cfg.mtu < (0x09#8).toNat) ∧
    (busy.rxd = 0x5A#8 :: [] ∧ busy.rxph = .data ∧ busy.rxidx < busy.rxbuf.length) ∧
    (State.reset.rxph ≠ .data ∨ State.reset.rxd = []) := by decide

/-- A byte of another class waits in the phase: none of the six other guards holds. -/
theorem witness_RxByteStepEffects_held :
    (∀ b rest, (rxAt .hunt 0xFF#8).rxd = b :: rest → ¬ ((rxAt .hunt 0xFF#8).rxph = .hunt ∧ b ≠ 0xFF#8)) ∧
    (∀ b rest, (rxAt .hunt 0x00#8).rxd = b :: rest → ¬ ((rxAt .hunt 0x00#8).rxph = .hunt ∧ b = 0xFF#8)) ∧
    (∀ b rest, (rxAt .len 0x01#8).rxd = b :: rest → ¬ ((rxAt .len 0x01#8).rxph = .len ∧ b = 0x00#8)) ∧
    (∀ b rest, (rxAt .len 0x00#8).rxd = b :: rest →
      ¬ ((rxAt .len 0x00#8).rxph = .len ∧ 1 ≤ b.toNat ∧ b.toNat ≤ (rxAt .len 0x00#8).cfg.mtu)) ∧
    (∀ b rest, (rxAt .len 0x08#8).rxd = b :: rest →
      ¬ ((rxAt .len 0x08#8).rxph = .len ∧ (rxAt .len 0x08#8).cfg.mtu < b.toNat)) := by
  refine ⟨?_, ?_, ?_, ?_, ?_⟩ <;> intro b rest h <;> cases h <;> decide

/-- The busy state with its frame of MTU bytes complete. -/
def complete : State := { busy with rxph := .deliver, rxidx := 8 }

/-- A frame of MTU bytes and a free place; no frame complete. -/
theorem witness_RxDeliverEffect :
    (complete.cfg.Valid ∧ complete.rxph = .deliver ∧ complete.tiq.length < complete.cfg.capTiq ∧
      1 ≤ complete.rxlen.toNat ∧ complete.rxlen.toNat ≤ complete.rxbuf.length) ∧
    (busy.cfg.Valid ∧ ¬ (busy.rxph = .deliver ∧ busy.tiq.length < busy.cfg.capTiq)) := by decide

/-- The dispatcher with a packet in hand. -/
def holding (p : Packet) (test wifi : List Packet) : State :=
  { State.reset with rthold := some p, fqTest := test, fqWifi := wifi }

/-- Room for one more, no room, and the shortest packets of each class. -/
theorem witness_RouteClassEffects :
    ((holding tPkt [pkt] []).cfg.Valid ∧ (holding tPkt [pkt] []).rthold = some tPkt ∧
      fnOf tPkt = some Config.ex.fnTest ∧ (holding tPkt [pkt] []).fqTest.length < Config.ex.capFq) ∧
    ((holding wPkt [] [pkt]).cfg.Valid ∧ (holding wPkt [] [pkt]).rthold = some wPkt ∧
      fnOf wPkt = some Config.ex.fnWifi ∧ (holding wPkt [] [pkt]).fqWifi.length < Config.ex.capFq) ∧
    ((holding [0x01#8] [] []).rthold = some [0x01#8] ∧ fnOf [0x01#8] ≠ some Config.ex.fnTest ∧
      fnOf [0x01#8] ≠ some Config.ex.fnWifi) ∧
    ((holding uPkt [] []).rthold = some uPkt ∧ fnOf uPkt ≠ some Config.ex.fnTest ∧
      fnOf uPkt ≠ some Config.ex.fnWifi) := by decide

/-- An image of one byte and the empty image hold no function byte. -/
theorem witness_FunctionByteOfImage : ([] : List Byte).length < 2 ∧ [0x01#8].length < 2 := by decide

theorem witness_RouteClassEffects_held :
    (∀ p, (holding tPkt [pkt, pkt] []).rthold = some p →
      ¬ (fnOf p = some Config.ex.fnTest ∧ (holding tPkt [pkt, pkt] []).fqTest.length < Config.ex.capFq)) ∧
    (∀ p, (holding wPkt [] [pkt, pkt]).rthold = some p →
      ¬ (fnOf p = some Config.ex.fnWifi ∧ (holding wPkt [] [pkt, pkt]).fqWifi.length < Config.ex.capFq)) ∧
    (∀ p, (holding uPkt [] []).rthold = some p →
      ¬ (fnOf p = none ∧ (none : Option Byte) ≠ some Config.ex.fnTest ∧ (none : Option Byte) ≠ some Config.ex.fnWifi)) := by
  refine ⟨?_, ?_, ?_⟩ <;> intro p h <;> cases h <;> decide

/-- The routing clauses are those of `witness_RouteClassEffects`; here a fetch, a latch in use, an empty RIQ. -/
theorem witness_DispatcherStepEffects :
    ({ State.reset with riq := [tPkt, wPkt] }.rthold = none ∧
      { State.reset with riq := [tPkt, wPkt] }.riq = tPkt :: [wPkt]) ∧
    ((holding tPkt [] []).rthold ≠ none ∨ (holding tPkt [] []).riq = []) ∧
    (State.reset.rthold ≠ none ∨ State.reset.riq = []) := by decide

/-- Both bridges holding a packet, with `l` in RIQ and TEQ. -/
def bridging (l : List Packet) : State :=
  { State.reset with buhold := some pkt, bdhold := some pkt, riq := l, teq := l }

theorem witness_BridgeStepEffects :
    ((withTiq [pkt]).buhold = none ∧ (withTiq [pkt]).tiq = pkt :: []) ∧
    ((bridging []).buhold ≠ none ∨ (bridging []).tiq = []) ∧
    ((bridging [wPkt]).buhold = some pkt ∧ (bridging [wPkt]).riq.length < (bridging [wPkt]).cfg.capRiq) ∧
    ((bridging [wPkt, pkt]).buhold = none ∨ ¬ (bridging [wPkt, pkt]).riq.length < (bridging [wPkt, pkt]).cfg.capRiq) ∧
    ({ State.reset with roq := [pkt] }.bdhold = none ∧ { State.reset with roq := [pkt] }.roq = pkt :: []) ∧
    ((bridging []).bdhold ≠ none ∨ (bridging []).roq = []) ∧
    ((bridging [wPkt]).bdhold = some pkt ∧ (bridging [wPkt]).teq.length < (bridging [wPkt]).cfg.capTeq) ∧
    ((bridging [wPkt, pkt]).bdhold = none ∨ ¬ (bridging [wPkt, pkt]).teq.length < (bridging [wPkt, pkt]).cfg.capTeq) := by
  decide

theorem witness_CodecOperationResults :
    State.reset.cfg.Valid ∧ IsPacket State.reset.cfg (zeros 1) ∧ IsPacket State.reset.cfg (zeros 8) := by decide

theorem witness_TransportOperationEffects :
    (IsPacket busy.cfg (zeros 8) ∧ busy.teq.length < busy.cfg.capTeq) ∧
    (¬ { busy with teq := [wPkt, pkt] }.teq.length < busy.cfg.capTeq) ∧
    ({ busy with tiq := [pkt] }.tiq = pkt :: []) ∧ busy.tiq = [] := by decide

theorem witness_RouterInterfaceEffects :
    (IsPacket busy.cfg (zeros 1) ∧ { busy with riq := [pkt] }.riq.length < busy.cfg.capRiq) ∧
    (¬ { busy with riq := [wPkt, pkt] }.riq.length < busy.cfg.capRiq) ∧
    ({ busy with roq := [pkt] }.roq = pkt :: []) ∧ busy.roq = [] := by decide

theorem witness_ConsumerPortEffects :
    ({ busy with fqTest := [tPkt] }.fqTest = tPkt :: [] ∧ busy.fqTest = []) ∧
    ({ busy with fqWifi := [wPkt] }.fqWifi = wPkt :: [] ∧ busy.fqWifi = []) ∧
    (IsPacket busy.cfg (zeros 8) ∧ { busy with roq := [pkt] }.roq.length < busy.cfg.capRoq) ∧
    (¬ { busy with roq := [wPkt, pkt] }.roq.length < busy.cfg.capRoq) := by decide

/-- V-SIG-4 and V-SIG-3. -/
theorem witness_SignalPrimitiveEffects :
    ((idleSet.pgs = true ∧ (sigs true false true).sig.pgs = true) ∨
      (idleSet.owe = true ∧ (sigs true false true).sig.owe = true) ∨
      (idleSet.hob = true ∧ (sigs true false true).sig.hob = true)) ∧
    (¬ (idleSet.pgs = true ∧ (sigs true false false).sig.pgs = true) ∧
      ¬ (idleSet.owe = true ∧ (sigs true false false).sig.owe = true) ∧
      ¬ (idleSet.hob = true ∧ (sigs true false false).sig.hob = true)) := by decide

theorem witness_TickEffect :
    ((State.reset.txph = .delay ∨ State.reset.txph = .syncWait) ∧ 0 < State.reset.txtimer) ∧
    (¬ (((txAt .delay false false false).txph = .delay ∨ (txAt .delay false false false).txph = .syncWait) ∧
      0 < (txAt .delay false false false).txtimer)) := by decide

theorem witness_StartupStepEffects :
    ((txAt .delay false false false).txph = .delay ∧ (txAt .delay false false false).txtimer = 0) ∧
    (¬ (State.reset.txph = .delay ∧ State.reset.txtimer = 0)) ∧
    ((txAt .syncEmit false false false).txph = .syncEmit ∧ (txAt .syncEmit false false false).txout = []) ∧
    (¬ (busy.txph = .syncEmit ∧ busy.txout = [])) ∧
    ((txAt .syncWait true false false).txph = .syncWait ∧ (txAt .syncWait true false false).txtimer = 0 ∧
      (txAt .syncWait true false false).sig.pgs = true) ∧
    ((txAt .syncWait false true true).txph = .syncWait ∧ (txAt .syncWait false true true).txtimer = 0 ∧
      (txAt .syncWait false true true).sig.pgs = false) := by decide

theorem witness_EmitByteEffect : busy.txout = 0x01#8 :: [0xAA#8] ∧ State.reset.txout = [] := by decide

/-- TX_CHECK with `l` in TEQ. -/
def checking (l : List Packet) : State := { txAt .check false false false with teq := l }

theorem witness_CheckAndIdleStepEffects :
    ((checking []).txph = .check ∧ (checking []).teq = []) ∧
    ((checking [pkt]).txph = .check ∧ (checking [pkt]).teq = pkt :: []) ∧
    (¬ ((checking [pkt]).txph = .check ∧ (checking [pkt]).teq = [])) ∧
    ((checking []).txph ≠ .check ∨ (checking []).teq = []) ∧ (busy.txph ≠ .check ∨ busy.teq = []) ∧
    ((txAt .idleWait false true false).txph = .idleWait ∧ (txAt .idleWait false true false).sig.owe = true) ∧
    ((txAt .idleWait false false true).txph = .idleWait ∧ (txAt .idleWait false false true).sig.owe = false ∧
      (txAt .idleWait false false true).sig.hob = true) ∧
    ((txAt .idleEmit false false false).txph = .idleEmit ∧ (txAt .idleEmit false false false).txout = []) := by decide

/-- The TX engine with a packet in hand. -/
def txHolding (ph : TxPhase) (p o go : Bool) : State := { txAt ph p o false with txhold := some pkt, txgo := go }

theorem witness_HoldStepEffects :
    ((txHolding .holdWait false true false).txph = .holdWait ∧ (txHolding .holdWait false true false).sig.owe = true ∧
      (txHolding .holdWait false true false).sig.pgs = false) ∧
    ((txHolding .holdWait true true false).txph = .holdWait ∧ (txHolding .holdWait true true false).sig.owe = true ∧
      (txHolding .holdWait true true false).sig.pgs = true) ∧
    ((txHolding .holdWait true false false).txhold = some pkt ∧ (txHolding .holdWait true false false).txph = .holdWait ∧
      (txHolding .holdWait true false false).sig.owe = false ∧ (txHolding .holdWait true false false).sig.pgs = true) ∧
    ((txHolding .grantEmit false false false).txph = .grantEmit ∧ (txHolding .grantEmit false false false).txout = [] ∧
      (txHolding .grantEmit false false false).txgo = false) ∧
    ((txHolding .grantEmit false false true).txhold = some pkt ∧ (txHolding .grantEmit false false true).txph = .grantEmit ∧
      (txHolding .grantEmit false false true).txout = [] ∧ (txHolding .grantEmit false false true).txgo = true) ∧
    ((txHolding .dataEmit false false false).txph = .dataEmit ∧ (txHolding .dataEmit false false false).txout = []) ∧
    (¬ (busy.txph = .dataEmit ∧ busy.txout = [])) := by decide

theorem witness_OwedGrantGoesFirst :
    ((txAt .idleWait false true true).txph = .idleWait ∧ (txAt .idleWait false true true).sig.owe = true) ∧
    ((txHolding .holdWait true true false).txph = .holdWait ∧ (txHolding .holdWait true true false).sig.owe = true) := by
  decide

theorem witness_FrameRowsDecodeTheirEncoding :
    WellFormed Config.ex .sentinel = true ∧ encode Config.ex .sentinel = some [0xFF#8, 0x00#8] ∧
    WellFormed Config.ex (.dataFrame (zeros 1)) = true ∧
    encode Config.ex (.dataFrame (zeros 1)) = some [0xFF#8, 0x01#8, 0x00#8] ∧
    WellFormed Config.ex (.dataFrame (zeros 8)) = true := by decide

theorem witness_ByteRowsDecodeTheirEncoding :
    (WellFormed Config.ex (.lenok 0x08#8) = true ∧ bytePhase (.lenok 0x08#8) = some .len ∧
      encode Config.ex (.lenok 0x08#8) = some [0x08#8]) ∧
    (WellFormed Config.ex (.lenover 0x09#8) = true ∧ bytePhase (.lenover 0x09#8) = some .len) ∧
    decodeByte .len Config.ex.mtu 0x09#8 = .ok (.lenover 0x09#8) := by decide

theorem witness_RouteRowsDecodeTheirEncoding :
    Config.ex.Valid ∧ WellFormed Config.ex (.routeUnrouted none) = true ∧
    WellFormed Config.ex (.routeUnrouted (some 0x00#8)) = true := by decide

theorem witness_ResynchronisationAfterGarbage :
    (∀ b ∈ [0x00#8, 0xFE#8], b ≠ 0xFF#8) ∧ IsPacket Config.ex (zeros 1) ∧ IsPacket Config.ex (zeros 8) := by decide

/-- An RX engine that hunts, with bytes at RXD and `n` turns scheduled. -/
def hunting (bs : List Byte) (n : Nat) : State :=
  { State.reset with rxd := bs, sched := List.replicate n (.agent .rx) }

/-- The line of V-DEC-3, whose first frame is a data frame; and an over-length header before a sentinel. -/
theorem witness_RxEngineCarriesOutDecodeNext :
    ((hunting [0x12#8, 0x34#8, 0xFF#8, 0x02#8, 0xAA#8, 0xBB#8, 0xFF#8, 0x00#8] 6).cfg.Valid ∧
      (hunting [0x12#8, 0x34#8, 0xFF#8, 0x02#8, 0xAA#8, 0xBB#8, 0xFF#8, 0x00#8] 6).rxph = .hunt ∧
      (hunting [0x12#8, 0x34#8, 0xFF#8, 0x02#8, 0xAA#8, 0xBB#8, 0xFF#8, 0x00#8] 6).rxbuf.length = 8 ∧
      decodeNext 8 (hunting [0x12#8, 0x34#8, 0xFF#8, 0x02#8, 0xAA#8, 0xBB#8, 0xFF#8, 0x00#8] 6).rxd =
        some (.data [0xAA#8, 0xBB#8], [0xFF#8, 0x00#8]) ∧
      (hunting [0x12#8, 0x34#8, 0xFF#8, 0x02#8, 0xAA#8, 0xBB#8, 0xFF#8, 0x00#8] 6).sched =
        List.replicate (8 - 2) (.agent .rx)) ∧
    ((hunting [0xFF#8, 0x09#8, 0xFF#8, 0x00#8] 4).rxph = .hunt ∧
      decodeNext 8 (hunting [0xFF#8, 0x09#8, 0xFF#8, 0x00#8] 4).rxd = some (.sentinel, []) ∧
      (hunting [0xFF#8, 0x09#8, 0xFF#8, 0x00#8] 4).sched = List.replicate (4 - 0) (.agent .rx)) := by decide

/-- V-DEC-4, V-DEC-5 and V-DEC-6. -/
theorem witness_RxEngineWaitsWhereDecodeNextBlocks :
    ((hunting [0x00#8, 0x00#8, 0x00#8] 3).rxph = .hunt ∧ (hunting [0x00#8, 0x00#8, 0x00#8] 3).rxbuf.length = 8 ∧
      decodeNext 8 (hunting [0x00#8, 0x00#8, 0x00#8] 3).rxd = none ∧
      (hunting [0x00#8, 0x00#8, 0x00#8] 3).sched = List.replicate 3 (.agent .rx)) ∧
    decodeNext 8 (hunting [0xFF#8] 1).rxd = none ∧ decodeNext 8 (hunting [0xFF#8, 0x03#8, 0x01#8] 3).rxd = none := by decide

theorem witness_EveryStepKeepsInvariant : Inv busy ∧ ∃ t, step busy = .next t := ⟨witness_Inv, _, rfl⟩

theorem witness_StepNeverFaultsUnderInvariant : Inv busy := witness_Inv

theorem witness_ConfigurationIsConstant : (∃ t, step busy = .next t) ∧ ∃ t, step (cutMoving .reset) = .next t :=
  ⟨⟨_, rfl⟩, _, rfl⟩

theorem witness_InertQueuesAreNeverTouched : ∃ t, exec .buFetch State.reset = .next t := ⟨_, rfl⟩

/-- A row of each of the five agents, and the tick, that answers a next state. -/
theorem witness_AgentsWriteOnlyWhatTheyOwn :
    (rxOwn (.data 0x5A#8) = true ∧ ∃ t, exec (.data 0x5A#8) busy = .next t) ∧
    (txOwn .txEmitByte = true ∧ ∃ t, exec .txEmitByte busy = .next t) ∧ (∃ t, exec .txTick State.reset = .next t) ∧
    (rtOwn .rtRouteTest = true ∧ ∃ t, exec .rtRouteTest (holding tPkt [] []) = .next t) ∧
    (∃ t, exec .buPost (bridging [wPkt]) = .next t) ∧ ∃ t, exec .bdSend (bridging [wPkt]) = .next t :=
  ⟨⟨rfl, _, rfl⟩, ⟨rfl, _, rfl⟩, ⟨_, rfl⟩, ⟨rfl, _, rfl⟩, ⟨_, rfl⟩, ⟨_, rfl⟩⟩

theorem witness_TxPhaseGraph :
    (∃ t, exec .txCheckEmpty (txAt .check false false false) = .next t) ∧ OutMatchesPhase (txAt .check false false false) ∧
    txOwn .txCheckEmpty = true ∧ exec .txCheckEmpty (txAt .check false false false) ≠ .next (txAt .check false false false) :=
  ⟨⟨_, rfl⟩, by unfold OutMatchesPhase; decide, rfl, fun h => by
    have := congrArg (fun r => after r State.txph) h
    revert this; decide⟩

theorem witness_StartupEndsOnlyByPollHit :
    (inStartup (txAt .syncWait true false false).txph = true ∧
      ∃ t, exec .txSyncPollHit (txAt .syncWait true false false) = .next t ∧ inStartup t.txph = false) ∧
    (inStartup busy.txph = false ∧ ∃ t, exec .txEmitByte busy = .next t) :=
  ⟨⟨rfl, _, rfl, rfl⟩, ⟨rfl, _, rfl⟩⟩

theorem witness_FrameBeingWrittenIsNotInterrupted :
    OutMatchesPhase busy ∧ busy.txout = 0x01#8 :: [0xAA#8] ∧ (∃ t, exec .txEmitByte busy = .next t) ∧
    ∃ t, exec (.data 0x5A#8) busy = .next t :=
  ⟨by unfold OutMatchesPhase; decide, rfl, ⟨_, rfl⟩, ⟨_, rfl⟩⟩

/-- A run that begins a data frame, and a run from reset that hears a sentinel. -/
theorem witness_OneDataFramePerCredit :
    (∀ i ∈ [Instr.txHoldWakeSend], ∀ x, i ≠ .sigRaise x) ∧
    (∃ t, execAll [.txHoldWakeSend] (txHolding .holdWait true false false) = .next t) ∧
    (∀ i ∈ [Instr.start, .len0], ∀ x, i ≠ .sigRaise x) ∧
    ∃ t, execAll [.start, .len0] State.reset = .next t :=
  ⟨by simp, ⟨_, rfl⟩, by simp, ⟨_, rfl⟩⟩

/-- A run that begins a grant, and a run from reset that accepts a data frame. -/
theorem witness_OneGrantPerAcceptedFrame :
    (∀ i ∈ [Instr.txIdleWakeGrant], ∀ x, i ≠ .sigRaise x) ∧
    (∃ t, execAll [.txIdleWakeGrant] (txAt .idleWait false true false) = .next t) ∧
    (∀ i ∈ [Instr.dataFrame pkt], ∀ x, i ≠ .sigRaise x) ∧
    ∃ t, execAll [.dataFrame pkt] State.reset = .next t :=
  ⟨by simp, ⟨_, rfl⟩, by simp, ⟨_, rfl⟩⟩

/-- One tick less than T_INIT, and a run that writes a byte. -/
theorem witness_SentinelComesFirstAfterReset :
    ([Instr.txTick].count .txTick < Config.ex.tInit ∧ ∃ t, execAll [.txTick] State.reset = .next t) ∧
    ∃ t, execAll [.txTick, .txTick, .txDelayExpire, .txEmitByte] State.reset = .next t ∧ txdBytes t.out = [0xFF#8] :=
  ⟨⟨by decide, _, rfl⟩, ⟨_, rfl, rfl⟩⟩

theorem witness_InboundPacketsKeepOrderAndCount :
    (ofBlock (.dataFrame tPkt) = true ∧ ∃ t, exec (.dataFrame tPkt) State.reset = .next t) ∧
    (ofBlock .rtRouteTest = true ∧ ∃ t, exec .rtRouteTest (holding tPkt [pkt] []) = .next t) :=
  ⟨⟨rfl, _, rfl⟩, ⟨rfl, _, rfl⟩⟩

theorem witness_OutboundPacketsKeepOrderAndCount :
    Inv busy ∧ OutboundAccount [pkt, wPkt] busy ∧ ofBlock .txEmitByte = true ∧ ∃ t, exec .txEmitByte busy = .next t :=
  ⟨witness_Inv, ⟨[.sentinel], [0xFF#8, 0x03#8, 0x05#8], by simp [FrameOk], rfl, by decide,
    .inr (.inl ⟨by decide, rfl, pkt, rfl, rfl⟩)⟩, rfl, ⟨_, rfl⟩⟩

/-- The test queue full, and the wireless-control queue full, each with a step of another agent. -/
theorem witness_HeadOfLineBlocking :
    ((holding tPkt [pkt, pkt] []).cfg.Valid ∧ (holding tPkt [pkt, pkt] []).rthold = some tPkt ∧
      fnOf tPkt = some Config.ex.fnTest ∧ ¬ (holding tPkt [pkt, pkt] []).fqTest.length < Config.ex.capFq) ∧
    (rtOwn .rtDrop = true ∧ ∃ t, exec (.postInbound wPkt) (holding tPkt [pkt, pkt] []) = .next t) ∧
    ((holding wPkt [] [pkt, pkt]).cfg.Valid ∧ (holding wPkt [] [pkt, pkt]).rthold = some wPkt ∧
      fnOf wPkt = some Config.ex.fnWifi ∧ ¬ (holding wPkt [] [pkt, pkt]).fqWifi.length < Config.ex.capFq) ∧
    ∃ t, exec .receiveForWifiCtrl (holding wPkt [] [pkt, pkt]) = .next t :=
  ⟨by decide, ⟨rfl, _, rfl⟩, by decide, ⟨_, rfl⟩⟩

/-- The dispatcher with the four packets of P3 before it and eight turns scheduled; RIQ may be deeper than that of EX. -/
def fanOut : State :=
  { State.resetWith { Config.ex with capRiq := 4 } with
    riq := [tPkt, wPkt, pkt, uPkt], sched := List.replicate 8 (.agent .rt) }

theorem witness_RouterFanOut :
    fanOut.cfg.Valid ∧ 2 ≤ fanOut.cfg.capFq ∧ fanOut.rthold = none ∧ fanOut.fqTest = [] ∧ fanOut.fqWifi = [] ∧
    fanOut.fqX0 = [] ∧ fanOut.fqX1 = [] ∧ fanOut.riq = [tPkt, wPkt, pkt, uPkt] ∧
    fnOf tPkt = some fanOut.cfg.fnTest ∧ fnOf wPkt = some fanOut.cfg.fnWifi ∧ fnOf pkt = some fanOut.cfg.fnTest ∧
    fnOf uPkt ≠ some fanOut.cfg.fnTest ∧ fnOf uPkt ≠ some fanOut.cfg.fnWifi ∧
    fanOut.sched = List.replicate 8 (.agent .rt) := by decide

theorem witness_NoOutboundPacketSleeps :
    ((txAt .idleWait true false false).txph = .idleWait ∧ (txAt .idleWait true false false).teq = []) ∧
    (∀ m, Instr.transportSend pkt ≠ .sigWait m) ∧
    ∃ t, exec (.transportSend pkt) (txAt .idleWait true false false) = .next t ∧ t.txph = .idleWait ∧ t.teq ≠ [] :=
  ⟨by decide, by simp, ⟨_, rfl, rfl, by decide⟩⟩

/-- V-TX-4: a tick in TX_HOLD_WAIT without a credit. -/
theorem witness_LostGrantStallsForEver :
    ((txHolding .holdWait false false false).txph = .holdWait ∧ (txHolding .holdWait false false false).txhold = some pkt ∧
      (txHolding .holdWait false false false).txout = [] ∧ (txHolding .holdWait false false false).sig.pgs = false ∧
      (txHolding .holdWait false false false).sig.owe = false) ∧
    heardBy .txTick (txHolding .holdWait false false false) = 0 ∧
    deliveredBy .txTick (txHolding .holdWait false false false) = [] ∧ (∀ x, Instr.txTick ≠ .sigRaise x) ∧
    ∃ t, exec .txTick (txHolding .holdWait false false false) = .next t :=
  ⟨by decide, rfl, rfl, by simp, ⟨_, rfl⟩⟩

/-- The dispatcher's and the bridges' turns, with empty and with full latches. -/
theorem witness_EngineTurnsFollowTheirLatches :
    ((moving (.agent .rt) .hunt []).sched = .agent .rt :: [] ∧ (moving (.agent .rt) .hunt []).rthold = none) ∧
    ({ holding tPkt [] [] with sched := [.agent .rt] }.sched = .agent .rt :: [] ∧
      { holding tPkt [] [] with sched := [.agent .rt] }.rthold = some tPkt ∧ fnOf tPkt = some Config.ex.fnTest) ∧
    (fnOf wPkt ≠ some Config.ex.fnTest ∧ fnOf wPkt = some Config.ex.fnWifi) ∧
    (fnOf [0x01#8] ≠ some Config.ex.fnTest ∧ fnOf [0x01#8] ≠ some Config.ex.fnWifi) ∧
    ((moving (.agent .bu) .hunt []).sched = .agent .bu :: [] ∧ (moving (.agent .bu) .hunt []).buhold = none) ∧
    ({ bridging [] with sched := [.agent .bu] }.sched = .agent .bu :: [] ∧ (bridging []).buhold ≠ none) ∧
    ((moving (.agent .bd) .hunt []).sched = .agent .bd :: [] ∧ (moving (.agent .bd) .hunt []).bdhold = none) ∧
    ({ bridging [] with sched := [.agent .bd] }.sched = .agent .bd :: [] ∧ (bridging []).bdhold ≠ none) ∧
    (moving (.agent .bu) .hunt []).coupling = .bridged ∧ (bridging []).coupling = .bridged ∧
    ((cutMoving (.agent .bd)).sched = .agent .bd :: [] ∧ (cutMoving (.agent .bd)).coupling = .cut ∧
      (cutMoving (.agent .bd)).cfg.Valid) := by decide

theorem witness_OperationsNeitherReadNorWriteTheEngines :
    (callable (.transportSend pkt) = true ∧ ∃ t, exec (.transportSend pkt) busy = .next t ∧ t.sig.hob = true) ∧
    (callable .receiveForTest = true ∧ ∃ t, exec .receiveForTest (holding tPkt [pkt] []) = .next t) :=
  ⟨⟨rfl, _, rfl, rfl⟩, ⟨rfl, _, rfl⟩⟩

/-- The three clauses of `FirstSentinel`: T_INIT ticks counted in TX_DELAY, the first sentinel half written, and later. -/
theorem witness_FirstSentinelIsKept :
    (FirstSentinel 2 (txAt .delay false false false) ∧ ∃ t, exec .txDelayExpire (txAt .delay false false false) = .next t) ∧
    FirstSentinel 2 { txAt .syncEmit false false false with txout := [0x00#8], out := [.txd 0xFF#8] } ∧
    FirstSentinel 2 busy :=
  ⟨⟨⟨rfl, rfl, by decide⟩, _, rfl⟩, ⟨by decide, .inl rfl⟩, ⟨by decide, by decide⟩⟩

/-- Every clause's move heads some schedule and the step answers; the two output ports with a packet to give and without. -/
theorem witness_OutsidersReachOnlyThePorts :
    (∀ m ∈ [Move.arrive 0x12#8, .fire .txTick, .fire (.submitOutbound pkt), .fire .receiveForTest,
        .fire .receiveForWifiCtrl, .fire (.transportSend pkt), .fire (.dataFrame pkt), .fire (.data 0x12#8)],
      (moving m .hunt []).sched = m :: [] ∧ (moving m .hunt []).coupling = .bridged ∧
      after (step (moving m .hunt [])) State.sched = some []) ∧
    (∀ m ∈ [Move.fire .receiveForTest, .fire .receiveForWifiCtrl],
      after (step { holding tPkt [pkt] [pkt] with sched := [m] }) State.out ≠ some []) ∧
    ofBlock (.transportSend pkt) = false ∧
    Instr.data 0x12#8 ∈ [.sentinel, .dataFrame pkt, .junk 0x12#8, .start, .len0, .lenok 0x12#8, .lenover 0x12#8,
      .data 0x12#8] := by decide

/-- A byte added; one taken by the engine's turn and by a named step; a whole frame taken. -/
theorem witness_WaitingBytesAreTakenInOrder :
    after (step (moving (.arrive 0x12#8) .hunt [0x34#8])) State.rxd = some [0x34#8, 0x12#8] ∧
    after (step busy) State.rxd = some [] ∧
    after (step (moving (.fire .rxJunk) .hunt [0x12#8, 0x34#8])) State.rxd = some [0x34#8] ∧
    after (step (moving .frame .hunt [0xFF#8, 0x01#8, 0x5A#8, 0x34#8])) State.rxd = some [0x34#8] := by decide

/-- A step of the transport and one of the router. -/
theorem witness_CutHalvesShareNothing :
    (∀ m ∈ [Move.fire (.transportSend pkt), .fire (.postInbound pkt)],
      (cutMoving m).coupling = .cut ∧ after (step (cutMoving m)) State.sched = some []) ∧
    (∀ ms, (cutMoving (.fire (.transportSend pkt))).sched ≠ .reset :: ms) ∧
    ∀ ms, (cutMoving (.fire (.postInbound pkt))).sched ≠ .reset :: ms :=
  ⟨by decide, nofun, nofun⟩

end Sys2Proof.Tests
end

/-! PROOFS. The family of spec/00_scope.md: bad parameters are refused (R8), one scheduled move is one attempted transition
(R9, R72), and no step writes a strap (R48). First what the shared operations answer when the parameters are bad, and what
`step` is for each kind of move; the obligations are assembled from these. -/

namespace Sys2Proof.Machine

open Sys2Proof

/-! ### Bad parameters are refused, operation by operation

Every operation meets a `guarded` before it does anything, on each branch of what it looks at first. -/

section BadParameters

variable {s : State}

theorem blocked_refuses (hc : ¬ s.cfg.Valid) : blocked s = .refused .badParameters := guarded_refuses hc

theorem fromLine_refuses {accepts : Byte → Bool} {f : Byte → State → Result} (hc : ¬ s.cfg.Valid)
    (hf : ∀ b (u : State), ¬ u.cfg.Valid → f b u = .refused .badParameters) :
    fromLine s accepts f = .refused .badParameters := by
  unfold fromLine
  split
  · exact blocked_refuses hc
  · split
    · exact hf _ _ hc
    · exact blocked_refuses hc

theorem routeHeld_refuses {code : Byte} {q : QueueId} (hc : ¬ s.cfg.Valid) :
    routeHeld code q s = .refused .badParameters := by
  unfold routeHeld
  split <;> exact guarded_refuses hc

theorem dropHeld_refuses (hc : ¬ s.cfg.Valid) : dropHeld s = .refused .badParameters := by
  unfold dropHeld
  split <;> exact guarded_refuses hc

theorem takeFrom_refuses {q : QueueId} {give : Packet → Output} (hc : ¬ s.cfg.Valid) :
    takeFrom q give s = .refused .badParameters := by
  unfold takeFrom
  split <;> exact guarded_refuses hc

/-- R8 for every row of the table. The cases are grouped by the shared operation the row begins with. -/
theorem exec_refuses (i : Instr) (hc : ¬ s.cfg.Valid) : exec i s = .refused .badParameters := by
  cases i with
  | sentinel | dataFrame _ | junk _ | start | len0 | lenok _ | lenover _ | data _ | rxDeliver
  | encodeData _ | encodeSentinel | decodeNext _ | transportSend _ | postInbound _ | submitOutbound _
  | sigRaise _ | sigWait _ | sigPoll
  | txTick | txDelayExpire | txSyncEmitDone | txSyncPollHit | txSyncPollMiss | txCheckEmpty
  | txIdleWakeGrant | txIdleWakeOutbound | txIdleEmitDone | txHoldWakeGrant | txHoldWakeBoth | txDataEmitDone =>
    exact guarded_refuses hc
  | rxJunk | rxStart | rxLenSentinel | rxLenData | rxLenOver | rxDataByte =>
    exact fromLine_refuses hc fun _ _ hu => guarded_refuses hu
  | transportReceive | nextOutbound | receiveForTest | receiveForWifiCtrl => exact takeFrom_refuses hc
  | routeTest | routeWifiCtrl | rtRouteTest | rtRouteWifi => exact routeHeld_refuses hc
  | rtDrop => exact dropHeld_refuses hc
  | routeUnrouted f =>
    simp only [exec, execRouteUnrouted]
    split
    · exact dropHeld_refuses hc
    · exact blocked_refuses hc
  | txEmitByte | txCheckDeq | txHoldWakeSend | txGrantEmitDoneBack | txGrantEmitDoneGo
  | rtFetch | buFetch | buPost | bdFetch | bdSend =>
    simp only [exec, execTxEmitByte, execTxCheckDeq, execTxHoldWakeSend, execTxGrantEmitDoneBack,
      execTxGrantEmitDoneGo, execRtFetch, execBuFetch, execBuPost, execBdFetch, execBdSend]
    split <;> exact guarded_refuses hc

theorem environment_refuses (m : Move) (hc : ¬ s.cfg.Valid) : environment m s = .refused .badParameters := by
  cases m <;> exact guarded_refuses hc

end BadParameters

/-! ### What `step` is, by what its move fetches -/

section Step

variable {s : State} {m : Move} {ms : List Move}

theorem step_of_sched_nil (hs : s.sched = []) : step s = blocked s := by
  unfold step; rw [hs]

theorem step_of_fetch {i : Instr} {u : State} (hs : s.sched = m :: ms)
    (hf : fetch m { s with sched := ms } = some (i, u)) : step s = exec i u := by
  unfold step; rw [hs]; dsimp only; rw [hf]

theorem step_of_fetch_none (hs : s.sched = m :: ms) (hf : fetch m { s with sched := ms } = none) :
    step s = environment m { s with sched := ms } := by
  unfold step; rw [hs]; dsimp only; rw [hf]

theorem step_refuses (hc : ¬ s.cfg.Valid) : step s = .refused .badParameters := by
  cases hs : s.sched with
  | nil => rw [step_of_sched_nil hs, blocked_refuses hc]
  | cons m ms =>
    cases hf : fetch m { s with sched := ms } with
    | none => rw [step_of_fetch_none hs hf]; exact environment_refuses m hc
    | some x =>
      obtain ⟨l, hu⟩ := fetch_state (i := x.1) (u := x.2) hf
      rw [step_of_fetch hs hf, hu]
      exact exec_refuses x.1 hc

theorem fireNamed_of_fireable {i : Instr} (hf : fireable s.coupling i = true) : fireNamed i s = some (i, s) :=
  if_pos hf

theorem fireNamed_of_not_fireable {i : Instr} (hf : fireable s.coupling i = false) : fireNamed i s = none :=
  if_neg (Bool.eq_false_iff.1 hf)

/-- A move that would fire `i` by name runs `i` where `i` may be fired by name. -/
theorem step_of_fireNamed {i : Instr} (hs : s.sched = m :: ms)
    (hm : fetch m { s with sched := ms } = fireNamed i { s with sched := ms }) (hf : fireable s.coupling i = true) :
    step s = exec i { s with sched := ms } :=
  step_of_fetch hs (hm.trans (fireNamed_of_fireable hf))

/-- Where `i` may not be fired by name, such a move is used up and nothing else changes. -/
theorem step_of_fireNamed_waits {i : Instr} (hc : s.cfg.Valid) (hs : s.sched = m :: ms)
    (hm : fetch m { s with sched := ms } = fireNamed i { s with sched := ms })
    (he : environment m { s with sched := ms } = blocked { s with sched := ms })
    (hf : fireable s.coupling i = false) : step s = .next { s with sched := ms } := by
  rw [step_of_fetch_none hs (hm.trans (fireNamed_of_not_fireable hf)), he]
  exact blocked_eq hc

end Step

/-! ### No transition writes a strap or the coupling -/

theorem Fires.cfg_coupling {i : Instr} {s t : State} (h : Fires i s t) : t.cfg = s.cfg ∧ t.coupling = s.coupling := by
  cases h <;> exact ⟨rfl, rfl⟩

theorem exec_cfg_coupling {i : Instr} {s t : State} (h : exec i s = .next t) :
    t.cfg = s.cfg ∧ t.coupling = s.coupling := by
  obtain ⟨-, rfl | hf⟩ := exec_next h
  · exact ⟨rfl, rfl⟩
  · exact hf.cfg_coupling

end Sys2Proof.Machine

namespace Sys2Proof.Proofs

open Sys2Proof Sys2Proof.Machine

/-- Settles O38: reset keeps the straps and the coupling (R48), and so does every instruction that fires. -/
theorem configurationIsConstant : Obligations.ConfigurationIsConstant := by
  intro s t h
  obtain ⟨-, ⟨-, rfl⟩ | ⟨m, ms, -, rfl | ⟨b, -, rfl⟩ | ⟨-, rfl⟩ | ⟨i, l, -, hx⟩⟩⟩ := step_next h
  · exact ⟨rfl, rfl⟩
  · exact ⟨rfl, rfl⟩
  · exact ⟨rfl, rfl⟩
  · exact ⟨rfl, rfl⟩
  · obtain ⟨hcfg, hcpl⟩ := exec_cfg_coupling hx
    exact ⟨hcfg, hcpl⟩

/-- Settles O6: each move's fetch is looked up, and the step is `exec` of what it names or uses up the move. -/
theorem stepRunsScheduledInstruction : Obligations.StepRunsScheduledInstruction := by
  intro s ms
  refine ⟨fun i hf hs => ?named, fun i hc hf hs => ?notNamed, fun hs => ?tx, fun hs => ?rt,
    fun hb => ⟨fun hs => ?bu, fun hs => ?bd⟩, fun hc hcut hs => ?cut, fun b hc hs => ?arrive, fun hc hs => ?idle⟩
  case named => exact step_of_fireNamed hs rfl hf
  case notNamed => exact step_of_fireNamed_waits hc hs rfl rfl hf
  case tx => exact step_of_fetch hs rfl
  case rt => exact step_of_fetch hs rfl
  case bu => exact step_of_fireNamed hs rfl (by rw [fireable_buTurn, hb]; rfl)
  case bd => exact step_of_fireNamed hs rfl (by rw [fireable_bdTurn, hb]; rfl)
  case cut =>
    obtain hs | hs := hs
    · exact step_of_fireNamed_waits hc hs rfl rfl (by rw [fireable_buTurn, hcut]; rfl)
    · exact step_of_fireNamed_waits hc hs rfl rfl (by rw [fireable_bdTurn, hcut]; rfl)
  case arrive =>
    rw [step_of_fetch_none hs rfl]
    exact guarded_fires hc trivial
  case idle => rw [step_of_sched_nil hs, blocked_eq hc]

/-- Settles O8: R8's refusal for every instruction, and for a step whether its move fetches one or not. -/
theorem badParametersAreRefused : Obligations.BadParametersAreRefused :=
  fun _ hc => ⟨fun i => exec_refuses i hc, step_refuses hc⟩

end Sys2Proof.Proofs

/-! PROOFS. The family of spec/10_state.md: the invariants of R47, the order of packets on their two paths (R54, R74), the
first sentinel (R263), and who writes which element (R45). First what a transition can do to each part of the state, said
once; the invariants and the obligations are assembled from these. -/

namespace Sys2Proof.Machine

open Sys2Proof

/-! ### The queues and latches under a transition -/

/-- What a transition does to one queue: nothing, one `deq`, or one `enq` of a packet that an interface offers, a latch
holds or the RX engine delivers (spec/10_state.md R23). -/
def QueueStep (s : State) (old new : List Packet) (cap : Nat) : Prop :=
  new = old ∨ (∃ p, old = p :: new) ∨
    ∃ p, old.length < cap ∧ new = old ++ [p] ∧ (IsPacket s.cfg p ∨ heldIn s p)

section Transitions

variable {i : Instr} {s t : State}

/-- A packet assembled in `rxbuf` has 1 to `MTU` bytes (R42). -/
theorem isPacket_take_rxbuf (hb : s.rxbuf.length = s.cfg.mtu) (h1 : 1 ≤ s.rxlen.toNat)
    (hn : s.rxlen.toNat ≤ s.rxbuf.length) : IsPacket s.cfg (s.rxbuf.take s.rxlen.toNat) := by
  simp only [IsPacket, List.length_take]
  omega

/-- Who appends to a queue and who takes from it (R25 to R30), queue by queue. -/
theorem Fires.queue_next (h : Fires i s t) (hb : s.rxbuf.length = s.cfg.mtu) (q : QueueId) :
    QueueStep s (s.queue q) (t.queue q) (capOf s.cfg q) := by
  cases q with
  | tiq => cases h with
    | dataFrame _ hp _ hr => exact .inr (.inr ⟨_, hr, rfl, .inl hp⟩)
    | rxDeliver _ hr h1 hn => exact .inr (.inr ⟨_, hr, rfl, .inl (isPacket_take_rxbuf hb h1 hn)⟩)
    | transportReceive hq | buFetch _ hq => exact .inr (.inl ⟨_, hq⟩)
    | _ => exact .inl rfl
  | teq => cases h with
    | transportSend hp hr => exact .inr (.inr ⟨_, hr, rfl, .inl hp⟩)
    | bdSend hp hr => exact .inr (.inr ⟨_, hr, rfl, .inr (.inr (.inr (.inr hp)))⟩)
    | txCheckDeq _ hq => exact .inr (.inl ⟨_, hq⟩)
    | _ => exact .inl rfl
  | riq => cases h with
    | postInbound hp hr => exact .inr (.inr ⟨_, hr, rfl, .inl hp⟩)
    | buPost hp hr => exact .inr (.inr ⟨_, hr, rfl, .inr (.inr (.inr (.inl hp)))⟩)
    | rtFetch _ hq => exact .inr (.inl ⟨_, hq⟩)
    | _ => exact .inl rfl
  | roq => cases h with
    | submitOutbound hp hr => exact .inr (.inr ⟨_, hr, rfl, .inl hp⟩)
    | nextOutbound hq | bdFetch _ hq => exact .inr (.inl ⟨_, hq⟩)
    | _ => exact .inl rfl
  | fqTest => cases h with
    | routeTest hp _ hr | rtRouteTest hp _ hr => exact .inr (.inr ⟨_, hr, rfl, .inr (.inr (.inl hp))⟩)
    | receiveForTest hq => exact .inr (.inl ⟨_, hq⟩)
    | _ => exact .inl rfl
  | fqWifi => cases h with
    | routeWifiCtrl hp _ hr | rtRouteWifi hp _ hr => exact .inr (.inr ⟨_, hr, rfl, .inr (.inr (.inl hp))⟩)
    | receiveForWifiCtrl hq => exact .inr (.inl ⟨_, hq⟩)
    | _ => exact .inl rfl
  | fqX0 => cases h <;> exact .inl rfl
  | fqX1 => cases h <;> exact .inl rfl

/-- A packet in a latch was in a latch before, or at the head of a queue. -/
theorem Fires.held_next (h : Fires i s t) {p : Packet} (hp : heldIn t p) : heldIn s p ∨ ∃ q, p ∈ s.queue q := by
  obtain hx | hr | hu | hd := hp
  · cases h with
    | txCheckDeq _ hq => cases hx; exact .inr ⟨.teq, by simp [hq]⟩
    | txDataEmitDone => cases hx
    | _ => exact .inl (.inl hx)
  · cases h with
    | rtFetch _ hq => cases hr; exact .inr ⟨.riq, by simp [hq]⟩
    | routeTest | routeWifiCtrl | routeUnrouted | rtRouteTest | rtRouteWifi | rtDrop => cases hr
    | _ => exact .inl (.inr (.inl hr))
  · cases h with
    | buFetch _ hq => cases hu; exact .inr ⟨.tiq, by simp [hq]⟩
    | buPost => cases hu
    | _ => exact .inl (.inr (.inr (.inl hu)))
  · cases h with
    | bdFetch _ hq => cases hd; exact .inr ⟨.roq, by simp [hq]⟩
    | bdSend => cases hd
    | _ => exact .inl (.inr (.inr (.inr hd)))

/-- No transition names `FQ_X0` or `FQ_X1` (spec/10_state.md R30). -/
theorem Fires.inert_eq (h : Fires i s t) : t.fqX0 = s.fqX0 ∧ t.fqX1 = s.fqX1 := by
  cases h <;> exact ⟨rfl, rfl⟩

/-! ### Each invariant of R47 under a transition -/

theorem Fires.cfg_eq (h : Fires i s t) : t.cfg = s.cfg := h.cfg_coupling.1

/-- Item 1: an `enq` fires only where there is room. -/
theorem Fires.keeps_queuesBounded (h : Fires i s t) (hb : s.rxbuf.length = s.cfg.mtu) (hi : QueuesBounded s) :
    QueuesBounded t := by
  intro q
  have hq := hi q
  rw [h.cfg_eq]
  obtain he | ⟨p, hp⟩ | ⟨p, hr, he, -⟩ := h.queue_next hb q
  · rw [he]; exact hq
  · rw [hp, List.length_cons] at hq; omega
  · rw [he, List.length_append, List.length_singleton]; omega

/-- Item 2: packets enter at an interface or from `rxbuf`, and then move between queues and latches. -/
theorem Fires.keeps_packetsSized (h : Fires i s t) (hb : s.rxbuf.length = s.cfg.mtu) (hi : PacketsSized s) :
    PacketsSized t := by
  obtain ⟨hqueue, hheld⟩ := hi
  refine ⟨fun q p hp => ?_, fun p hp => ?_⟩ <;> rw [h.cfg_eq]
  · obtain he | ⟨p', hp'⟩ | ⟨p', -, he, hsrc⟩ := h.queue_next hb q
    · exact hqueue q p (he ▸ hp)
    · exact hqueue q p (hp' ▸ List.mem_cons_of_mem _ hp)
    · rw [he, List.mem_append, List.mem_singleton] at hp
      obtain hp | rfl := hp
      · exact hqueue q p hp
      · exact hsrc.elim id (hheld p)
  · obtain hp | ⟨q, hp⟩ := h.held_next hp
    · exact hheld p hp
    · exact hqueue q p hp

/-- Item 3: R151 fills `txhold` on entering the three holding phases, R160 empties it on leaving them. -/
theorem Fires.keeps_hold (h : Fires i s t) (hi : HoldMatchesPhase s) : HoldMatchesPhase t := by
  unfold HoldMatchesPhase at hi ⊢
  cases h with
  | txCheckDeq | txDataEmitDone => rfl
  | txDelayExpire hp | txSyncEmitDone hp | txSyncPollHit hp | txSyncPollMiss hp | txCheckEmpty hp
  | txIdleWakeGrant hp | txIdleWakeOutbound hp | txIdleEmitDone hp | txHoldWakeGrant hp | txHoldWakeBoth hp
  | txHoldWakeSend _ hp | txGrantEmitDoneBack hp | txGrantEmitDoneGo _ hp => rw [hp] at hi; exact hi
  | _ => exact hi

/-- Item 5: the phase is left only by R158 and R159, and both leave `txgo` 0. -/
theorem Fires.keeps_go (h : Fires i s t) (hi : GoMatchesPhase s) : GoMatchesPhase t := by
  unfold GoMatchesPhase at hi ⊢
  intro hg
  cases h with
  | txHoldWakeGrant | txHoldWakeBoth => rfl
  | txGrantEmitDoneGo => cases hg
  | txGrantEmitDoneBack _ _ hgo => exact absurd (hgo.symm.trans hg) (by decide)
  | txDelayExpire hp | txSyncEmitDone hp | txSyncPollHit hp | txSyncPollMiss hp | txCheckEmpty hp | txCheckDeq hp
  | txIdleWakeGrant hp | txIdleWakeOutbound hp | txIdleEmitDone hp | txHoldWakeSend _ hp | txDataEmitDone hp =>
    exact absurd (hp.symm.trans (hi hg)) (by decide)
  | _ => exact hi hg

/-- The length byte of a packet's frame is the packet's length, `MTU` being at most 255 (R8). -/
theorem toNat_ofNat_length {p : Packet} (hc : s.cfg.Valid) (hp : IsPacket s.cfg p) :
    (BitVec.ofNat 8 p.length).toNat = p.length := by
  have hmtu := hc.1.2
  have hlen := hp.2
  rw [BitVec.toNat_ofNat]
  omega

/-- Item 6: R126 starts the index below the length, R128 counts it up, and RX_DELIVER is where they meet. -/
theorem Fires.keeps_rxRange (h : Fires i s t) (hc : s.cfg.Valid) (hi : RxRange s) : RxRange t := by
  obtain ⟨hbuf, hidx, hdata, hdeliver⟩ := hi
  cases h with
  | dataFrame hh hp hl =>
    refine ⟨?_, hp.2, fun hd => ?_, fun hd => ?_⟩
    · simp; omega
    all_goals exact absurd (hh.symm.trans hd) (by decide)
  | dataFrameWaits hh hp hl =>
    have hn := toNat_ofNat_length hc hp
    refine ⟨?_, hp.2, nofun, fun _ => ⟨?_, ?_, hn.symm⟩⟩
    · simp; omega
    · rw [hn]; exact hp.1
    · rw [hn]; exact hp.2
  | start | len0 | lenover | rxDeliver | rxStart | rxLenSentinel | rxLenOver => exact ⟨hbuf, hidx, nofun, nofun⟩
  | lenok _ h1 hn | rxLenData _ _ h1 hn => exact ⟨hbuf, Nat.zero_le _, fun _ => ⟨h1, hn, h1⟩, nofun⟩
  | data hp hr | rxDataByte _ hp hr =>
    obtain ⟨h1, hn, hlt⟩ := hdata hp
    refine ⟨by simpa using hbuf, by dsimp only; omega, fun hd => ⟨h1, hn, ?_⟩, fun hd => ⟨h1, hn, ?_⟩⟩
    · dsimp only at hd ⊢
      split at hd
      · cases hd
      · omega
    · dsimp only at hd ⊢
      split at hd
      · assumption
      · cases hd
  | _ => exact ⟨hbuf, hidx, hdata, hdeliver⟩

/-- Item 7. -/
theorem Fires.keeps_inert (h : Fires i s t) (hi : InertEmpty s) : InertEmpty t :=
  ⟨h.inert_eq.1.trans hi.1, h.inert_eq.2.trans hi.2⟩

/-- R36: ticks count down, and R147 alone loads the timer again. -/
theorem Fires.keeps_timer (h : Fires i s t) (hi : TimerRange s) : TimerRange t := by
  unfold TimerRange at hi ⊢
  cases h with
  | txTick => exact (Nat.sub_le _ _).trans hi
  | txSyncEmitDone => exact Nat.le_max_right _ _
  | _ => exact hi

end Transitions

end Sys2Proof.Machine

namespace Sys2Proof.Machine

open Sys2Proof

/-! ### The line under a transition -/

/-- Outside the emit phases `txout` is empty. -/
theorem OutMatchesPhase.txout_nil {s : State} (h : OutMatchesPhase s) {ph : TxPhase} (hp : s.txph = ph)
    (he : emitPhase ph = false) : s.txout = [] := by
  by_contra hne
  have := h.1 hne
  rw [hp, he] at this
  cases this

/-- What a transition does to `txout` and to the bytes on TXD: neither changes, R146 moves one byte from the first to the
second, or a whole frame is loaded. -/
inductive LineStep (i : Instr) (s t : State) : Prop where
  | still : i ≠ .txEmitByte → t.txout = s.txout → txdBytes t.out = txdBytes s.out →
      ((t.txph = s.txph ∧ t.txhold = s.txhold) ∨ s.txout = []) → LineStep i s t
  | write (b : Byte) : i = .txEmitByte → s.txout = b :: t.txout → txdBytes t.out = txdBytes s.out ++ [b] →
      t.txph = s.txph → t.txhold = s.txhold → LineStep i s t
  | loadSent : i ≠ .txEmitByte → s.txout = [] → t.txout = sent → txdBytes t.out = txdBytes s.out →
      emitPhase t.txph = true → t.txph ≠ .dataEmit → LineStep i s t
  | loadData (p : Packet) : i ≠ .txEmitByte → s.txout = [] → t.txout = frameOf p →
      txdBytes t.out = txdBytes s.out → s.txhold = some p → t.txhold = some p → t.txph = .dataEmit → LineStep i s t

section Line

variable {i : Instr} {s t : State}

/-- A frame is loaded only where the one before it is written out (R145 to R160); nobody but the TX engine reaches the
line. -/
theorem Fires.lineStep (h : Fires i s t) (ho : OutMatchesPhase s) : LineStep i s t := by
  cases h with
  | txEmitByte hb => exact .write _ rfl hb (by simp) rfl rfl
  | txDelayExpire hp | txSyncPollMiss hp | txIdleWakeGrant hp | txHoldWakeGrant hp | txHoldWakeBoth hp =>
    exact .loadSent nofun (ho.txout_nil hp rfl) rfl rfl rfl nofun
  | txHoldWakeSend hx hp => exact .loadData _ nofun (ho.txout_nil hp rfl) rfl rfl hx hx rfl
  | txGrantEmitDoneGo hx _ he => exact .loadData _ nofun he rfl rfl hx hx rfl
  | txSyncEmitDone _ he | txIdleEmitDone _ he | txGrantEmitDoneBack _ he | txDataEmitDone _ he =>
    exact .still nofun rfl rfl (.inr he)
  | txSyncPollHit hp | txCheckEmpty hp | txCheckDeq hp | txIdleWakeOutbound hp =>
    exact .still nofun rfl rfl (.inr (ho.txout_nil hp rfl))
  | _ => exact .still nofun rfl (by simp) (.inl ⟨rfl, rfl⟩)

/-- Item 4: what is loaded is a frame, two bytes longer than its packet at most. -/
theorem LineStep.keeps_txout (h : LineStep i s t) (hcfg : t.cfg = s.cfg) (hp : PacketsSized s) (ho : OutMatchesPhase s) :
    OutMatchesPhase t := by
  unfold OutMatchesPhase at ho ⊢
  obtain ⟨hphase, hlen⟩ := ho
  rw [hcfg]
  cases h with
  | still _ hout _ hs =>
    rw [hout]
    obtain ⟨hph, -⟩ | hnil := hs
    · rw [hph]; exact ⟨hphase, hlen⟩
    · exact ⟨fun hne => absurd hnil hne, hlen⟩
  | write b _ hout _ hph =>
    rw [hout] at hphase hlen
    rw [hph]
    exact ⟨fun _ => hphase (List.cons_ne_nil _ _), (Nat.le_succ _).trans hlen⟩
  | loadSent _ _ hout _ hph => rw [hout]; exact ⟨fun _ => hph, Nat.le_add_left _ _⟩
  | loadData p _ _ hout _ hhold _ hph =>
    rw [hout, hph]
    exact ⟨fun _ => rfl, Nat.add_le_add_right (hp.2 p (.inl hhold)).2 2⟩

/-- A further complete frame behind complete frames. -/
theorem frameOk_snoc {c : Config} {fs : List Frame} {f : Frame} (hfs : ∀ g ∈ fs, FrameOk c g) (hf : FrameOk c f) :
    ∀ g ∈ fs ++ [f], FrameOk c g := by
  intro g hg
  obtain hg | hg := List.mem_append.1 hg
  · exact hfs g hg
  · exact List.mem_singleton.1 hg ▸ hf

/-- The last byte of a frame completes it. -/
theorem flatMap_frameBytes_snoc {fs : List Frame} {f : Frame} {part bs : List Byte} {b : Byte}
    (hbs : bs = fs.flatMap frameBytes ++ part) (hf : part ++ [b] = frameBytes f) :
    bs ++ [b] = (fs ++ [f]).flatMap frameBytes ++ [] := by
  rw [hbs, List.append_assoc, hf]
  simp

/-- Item 8: the bytes on TXD and `txout` together stay whole frames. A written byte belongs to the frame under way, and
completes it when it is the last; a frame is loaded only behind a complete one. -/
theorem LineStep.keeps_line (h : LineStep i s t) (hcfg : t.cfg = s.cfg) (hp : PacketsSized s) (hl : LineFramed s) :
    LineFramed t := by
  obtain ⟨fs, part, hfs, hbytes, hpart⟩ := hl
  unfold LineFramed
  rw [hcfg]
  cases h with
  | still _ hout hb => exact ⟨fs, part, hfs, hb.trans hbytes, by rw [hout]; exact hpart⟩
  | write b _ hout hb =>
    obtain ⟨-, hnil⟩ | ⟨-, f, hf, hframe⟩ := hpart
    · cases hnil.symm.trans hout
    · rw [hout] at hframe
      by_cases hlast : t.txout = []
      · rw [hlast] at hframe
        exact ⟨fs ++ [f], [], frameOk_snoc hfs hf, hb.trans (flatMap_frameBytes_snoc hbytes hframe), .inl ⟨rfl, hlast⟩⟩
      · exact ⟨fs, part ++ [b], hfs, by rw [hb, hbytes, List.append_assoc],
          .inr ⟨hlast, f, hf, by rw [List.append_assoc]; exact hframe⟩⟩
  | loadSent _ hnil hout hb =>
    obtain ⟨rfl, -⟩ | ⟨hne, -⟩ := hpart
    · exact ⟨fs, [], hfs, hb.trans hbytes, .inr ⟨by rw [hout]; exact List.cons_ne_nil _ _, .sentinel, trivial, hout⟩⟩
    · exact absurd hnil hne
  | loadData p _ hnil hout hb hhold =>
    obtain ⟨rfl, -⟩ | ⟨hne, -⟩ := hpart
    · exact ⟨fs, [], hfs, hb.trans hbytes,
        .inr ⟨by rw [hout]; exact List.cons_ne_nil _ _, .data p, hp.2 p (.inl hhold), hout⟩⟩
    · exact absurd hnil hne

end Line

/-! ### All of R47 under an instruction and a step -/

/-- Every transition keeps R47 and the range of `txtimer`. -/
theorem Fires.keeps_inv {i : Instr} {s t : State} (h : Fires i s t) (hc : s.cfg.Valid) (hi : Inv s) : Inv t where
  queues := h.keeps_queuesBounded hi.rx.1 hi.queues
  packets := h.keeps_packetsSized hi.rx.1 hi.packets
  hold := h.keeps_hold hi.hold
  txout := (h.lineStep hi.txout).keeps_txout h.cfg_eq hi.packets hi.txout
  go := h.keeps_go hi.go
  rx := h.keeps_rxRange hc hi.rx
  inert := h.keeps_inert hi.inert
  line := (h.lineStep hi.txout).keeps_line h.cfg_eq hi.packets hi.line
  timer := h.keeps_timer hi.timer

theorem exec_keeps_inv {i : Instr} {s t : State} (h : exec i s = .next t) (hi : Inv s) : Inv t := by
  obtain ⟨hc, rfl | hf⟩ := exec_next h
  · exact hi
  · exact hf.keeps_inv hc hi

/-- R47 speaks of neither the waiting bytes, the schedule, the log counter nor the coupling. -/
theorem Inv.of_own_fields {s : State} (hi : Inv s) (l : List Byte) (ms : List Move) (n : Nat) (k : Coupling) :
    Inv { s with rxd := l, sched := ms, fresh := n, coupling := k } :=
  ⟨hi.queues, hi.packets, hi.hold, hi.txout, hi.go, hi.rx, hi.inert, hi.line, hi.timer⟩

/-- R45's last column meets R47, whatever the unspecified elements hold within their types. -/
theorem inv_resetTo {c : Config} {len : Byte} {idx : Nat} {buf line : List Byte} {moves : List Move} {n : Nat}
    (hidx : idx ≤ c.mtu) (hbuf : buf.length = c.mtu) : Inv (State.resetTo c len idx buf line moves n) where
  queues q := by cases q <;> exact Nat.zero_le _
  packets := by
    refine ⟨fun q p hp => ?_, fun p hp => ?_⟩
    · cases q <;> cases hp
    · obtain h | h | h | h := hp <;> cases h
  hold := rfl
  txout := ⟨fun h => absurd rfl h, Nat.zero_le _⟩
  go := nofun
  rx := ⟨hbuf, hidx, nofun, nofun⟩
  inert := ⟨rfl, rfl⟩
  line := ⟨[], [], nofun, rfl, .inl ⟨rfl, rfl⟩⟩
  timer := Nat.le_max_left _ _

theorem inv_resetWith (c : Config) : Inv (State.resetWith c) := inv_resetTo (Nat.zero_le _) List.length_replicate

end Sys2Proof.Machine

namespace Sys2Proof.Proofs

open Sys2Proof Sys2Proof.Machine

/-- Settles O36: reset establishes R47, and every transition that fires keeps each of its items. -/
theorem everyStepKeepsInvariant : Obligations.EveryStepKeepsInvariant := by
  intro s t hi h
  obtain ⟨-, ⟨-, rfl⟩ | ⟨m, ms, -, rfl | ⟨b, -, rfl⟩ | ⟨-, rfl⟩ | ⟨i, l, -, hx⟩⟩⟩ := step_next h
  · exact hi
  · exact hi.of_own_fields s.rxd ms s.fresh s.coupling
  · exact hi.of_own_fields (s.rxd ++ [b]) ms s.fresh s.coupling
  · exact (inv_resetWith s.cfg).of_own_fields s.rxd ms s.fresh s.coupling
  · exact exec_keeps_inv hx (hi.of_own_fields l ms s.fresh s.coupling)

/-- Settles O3. -/
theorem resetMeetsInvariant : Obligations.ResetMeetsInvariant :=
  ⟨fun _ _ _ _ _ _ _ _ hidx hbuf => inv_resetTo hidx hbuf, inv_resetWith Config.ex⟩

end Sys2Proof.Proofs

namespace Sys2Proof.Machine

open Sys2Proof

/-! ### The inbound path under a transition -/

/-- Does the event hand a packet to its consumer, or to LOG? -/
def handsOut : Output → Bool
  | .recvTest _ | .recvWifi _ | .log _ _ => true
  | .txd _ | .received _ | .outbound _ | .encoded _ | .decoded _ | .reported _ | .polled _ | .silent _ => false

/-- What a transition of the composed block does to the inbound path: the packets `ps` enter at its end, the oldest
leaves for the place of its class, or a consumer takes the oldest of its queue. -/
inductive InboundStep (s t : State) (ps : List Packet) : Prop where
  | enter (o : List Output) : (∀ e ∈ o, handsOut e = false) → t.out = s.out ++ o → t.fqTest = s.fqTest →
      t.fqWifi = s.fqWifi → inboundPipe t = inboundPipe s ++ ps → InboundStep s t ps
  | toTest (p : Packet) : ps = [] → t.out = s.out → t.fqTest = s.fqTest ++ [p] → t.fqWifi = s.fqWifi →
      inboundPipe s = p :: inboundPipe t → fnOf p = some s.cfg.fnTest → InboundStep s t ps
  | toWifi (p : Packet) : ps = [] → t.out = s.out → t.fqTest = s.fqTest → t.fqWifi = s.fqWifi ++ [p] →
      inboundPipe s = p :: inboundPipe t → fnOf p = some s.cfg.fnWifi → InboundStep s t ps
  | drop (p : Packet) (x : List Byte) : ps = [] → t.out = s.out ++ [.log p x] → t.fqTest = s.fqTest →
      t.fqWifi = s.fqWifi → inboundPipe s = p :: inboundPipe t → Unrouted s.cfg (fnOf p) → InboundStep s t ps
  | takeTest (p : Packet) : ps = [] → t.out = s.out ++ [.recvTest p] → s.fqTest = p :: t.fqTest →
      t.fqWifi = s.fqWifi → inboundPipe t = inboundPipe s → InboundStep s t ps
  | takeWifi (p : Packet) : ps = [] → t.out = s.out ++ [.recvWifi p] → t.fqTest = s.fqTest →
      s.fqWifi = p :: t.fqWifi → inboundPipe t = inboundPipe s → InboundStep s t ps

section Inbound

variable {i : Instr} {s t : State} {ps : List Packet}

/-- A step that hands nothing out and moves no packet. -/
theorem InboundStep.quiet (ho : t.out = s.out) (hT : t.fqTest = s.fqTest) (hW : t.fqWifi = s.fqWifi)
    (hp : inboundPipe t = inboundPipe s) : InboundStep s t [] :=
  .enter [] nofun (by rw [ho, List.append_nil]) hT hW (by rw [hp, List.append_nil])

/-- A step that gives out one event, none that hands a packet over. -/
theorem InboundStep.event {e : Output} (he : handsOut e = false) (ho : t.out = s.out ++ [e]) (hT : t.fqTest = s.fqTest)
    (hW : t.fqWifi = s.fqWifi) (hp : inboundPipe t = inboundPipe s) : InboundStep s t [] :=
  .enter [e] (by simpa using he) ho hT hW (by rw [hp, List.append_nil])

/-- The held packet is the oldest of the inbound path. -/
theorem inboundPipe_of_held {p : Packet} (hp : s.rthold = some p) :
    inboundPipe s = p :: inboundPipe { s with rthold := none } := by
  simp [inboundPipe, hp]

theorem deliveredBy_dataFrame {p : Packet} (hg : s.rxph = .hunt ∧ IsPacket s.cfg p ∧ s.hasRoom .tiq) :
    deliveredBy (.dataFrame p) s = [p] := if_pos hg

theorem deliveredBy_dataFrame_waits {p : Packet} (hr : ¬ s.hasRoom .tiq) : deliveredBy (.dataFrame p) s = [] :=
  if_neg fun hg => hr hg.2.2

theorem deliveredBy_rxDeliver (hg : s.rxph = .deliver ∧ s.hasRoom .tiq) :
    deliveredBy .rxDeliver s = [s.rxbuf.take s.rxlen.toNat] := if_pos hg

/-- Every transition that the composed block's agents and ports fire, seen from the inbound path (R74). -/
theorem Fires.inboundStep (h : Fires i s t) (hb : ofBlock i = true) : InboundStep s t (deliveredBy i s) := by
  cases h with
  | encodeData | encodeSentinel | decodeNext | transportSend | transportReceive | postInbound | nextOutbound
  | sigRaise | sigWait | sigPoll => cases hb
  | dataFrame hh hp _ hr =>
    rw [deliveredBy_dataFrame ⟨hh, hp, hr⟩]
    exact .enter [] nofun (by simp) rfl rfl (by simp [inboundPipe])
  | dataFrameWaits _ _ _ hr =>
    rw [deliveredBy_dataFrame_waits hr]
    exact .quiet rfl rfl rfl rfl
  | rxDeliver hh hr =>
    rw [deliveredBy_rxDeliver ⟨hh, hr⟩]
    exact .enter [] nofun (by simp) rfl rfl (by simp [inboundPipe])
  | buFetch hn hq => exact .quiet rfl rfl rfl (by simp [inboundPipe, hn, hq])
  | buPost hp => exact .quiet rfl rfl rfl (by simp [inboundPipe, hp])
  | rtFetch hn hq => exact .quiet rfl rfl rfl (by simp [inboundPipe, hn, hq])
  | routeTest hp hf | rtRouteTest hp hf => exact .toTest _ rfl rfl rfl rfl (inboundPipe_of_held hp) hf
  | routeWifiCtrl hp hf | rtRouteWifi hp hf => exact .toWifi _ rfl rfl rfl rfl (inboundPipe_of_held hp) hf
  | routeUnrouted hp hf | rtDrop hp hf => exact .drop _ _ rfl rfl rfl rfl (inboundPipe_of_held hp) hf
  | receiveForTest hq => exact .takeTest _ rfl rfl hq rfl rfl
  | receiveForWifiCtrl hq => exact .takeWifi _ rfl rfl rfl hq rfl
  | junk | lenover | txEmitByte | rxJunk | rxLenOver => exact .event rfl rfl rfl rfl rfl
  | _ => exact .quiet rfl rfl rfl rfl

/-- A delivery that fires lengthens `TIQ`. -/
theorem deliver_ne_self (h : deliver s = .next t) (hg : s.rxph = .deliver ∧ s.hasRoom .tiq) : t.tiq ≠ s.tiq := by
  obtain ⟨-, ⟨-, -, -, -, rfl⟩ | ⟨hn, -⟩⟩ := deliver_next h
  · simp [State.enq]
  · exact absurd hg hn

/-- A whole frame taken at a frame boundary with room in `TIQ` is delivered: R124, R126 and R128 leave `TIQ` alone, and
R161 lengthens it. -/
theorem execDataFrame_ne_self {p : Packet} (hh : s.rxph = .hunt) (hp : IsPacket s.cfg p) (hr : s.hasRoom .tiq)
    (h : execDataFrame p s = .next t) : t.tiq ≠ s.tiq := by
  obtain ⟨hc, ⟨-, h⟩ | ⟨hn, -⟩⟩ := guarded_next h
  · have hlen := toNat_ofNat_length hc hp
    obtain ⟨s3, h, hdeliver⟩ := andThen_next h
    obtain ⟨s2, h, hdata⟩ := andThen_next h
    obtain ⟨s1, hstart, hlenok⟩ := andThen_next h
    obtain ⟨-, ⟨-, rfl⟩ | ⟨hx, -⟩⟩ := takeStart_next hstart
    · obtain ⟨-, ⟨-, rfl⟩ | ⟨hx, -⟩⟩ := takeLenOk_next hlenok
      · obtain ⟨-, rfl⟩ := takeAll_next p (List.length_pos_iff.1 hp.1) rfl ((Nat.zero_add _).trans hlen.symm) hdata
        have hgrown := deliver_ne_self hdeliver ⟨rfl, hr⟩
        exact hgrown
      · exact absurd ⟨rfl, by rw [hlen]; exact hp⟩ hx
    · exact absurd ⟨hh, rfl⟩ hx
  · exact absurd ⟨hh, hp⟩ hn

/-- An instruction that answers the state unchanged has delivered nothing. -/
theorem deliveredBy_of_held (h : exec i s = .next s) : deliveredBy i s = [] := by
  cases i with
  | rxDeliver => exact if_neg fun hg => deliver_ne_self h hg rfl
  | dataFrame p => exact if_neg fun ⟨hh, hp, hr⟩ => execDataFrame_ne_self hh hp hr h rfl
  | _ => rfl

/-- Every instruction of the composed block, seen from the inbound path. -/
theorem exec_inboundStep (hb : ofBlock i = true) (h : exec i s = .next t) : InboundStep s t (deliveredBy i s) := by
  obtain ⟨-, rfl | hf⟩ := exec_next h
  · rw [deliveredBy_of_held h]; exact .quiet rfl rfl rfl rfl
  · exact hf.inboundStep hb

/-! The class of a packet is one of three, as the two known codes differ (R8); so what leaves the path belongs to the flow
of its own class alone. -/

/-- What hands no packet out adds nothing to what was handed out. -/
theorem filterMap_of_handsOut {f : Output → Option Packet} {o : List Output} (hf : ∀ e, handsOut e = false → f e = none)
    (ho : ∀ e ∈ o, handsOut e = false) : o.filterMap f = [] :=
  List.filterMap_eq_nil_iff.2 fun e he => hf e (ho e he)

theorem InboundStep.testFlow_eq (h : InboundStep s t ps) (hc : s.cfg.fnTest ≠ s.cfg.fnWifi) (hcfg : t.cfg = s.cfg) :
    testFlow t = testFlow s ++ ps.filter (hasCode s.cfg.fnTest) := by
  unfold testFlow
  cases h with
  | enter o ho hout hT hW hp =>
    rw [hout, hT, hp, hcfg, List.filterMap_append, filterMap_of_handsOut ?_ ho]
    · simp
    · intro e he
      cases e with
      | recvTest => cases he
      | _ => rfl
  | toTest p he hout hT hW hp hf => simp [he, hout, hT, hp, hcfg, hasCode, hf]
  | toWifi p he hout hT hW hp hf => simp [he, hout, hT, hp, hcfg, hasCode, hf, hc.symm]
  | drop p x he hout hT hW hp hf => simp [he, hout, hT, hp, hcfg, hasCode, hf.1]
  | takeTest p he hout hT hW hp | takeWifi p he hout hT hW hp => simp [he, hout, hT, hp, hcfg]

theorem InboundStep.wifiFlow_eq (h : InboundStep s t ps) (hc : s.cfg.fnTest ≠ s.cfg.fnWifi) (hcfg : t.cfg = s.cfg) :
    wifiFlow t = wifiFlow s ++ ps.filter (hasCode s.cfg.fnWifi) := by
  unfold wifiFlow
  cases h with
  | enter o ho hout hT hW hp =>
    rw [hout, hW, hp, hcfg, List.filterMap_append, filterMap_of_handsOut ?_ ho]
    · simp
    · intro e he
      cases e with
      | recvWifi => cases he
      | _ => rfl
  | toTest p he hout hT hW hp hf => simp [he, hout, hW, hp, hcfg, hasCode, hf, hc]
  | toWifi p he hout hT hW hp hf => simp [he, hout, hW, hp, hcfg, hasCode, hf]
  | drop p x he hout hT hW hp hf => simp [he, hout, hW, hp, hcfg, hasCode, hf.2]
  | takeTest p he hout hT hW hp | takeWifi p he hout hT hW hp => simp [he, hout, hW, hp, hcfg]

theorem InboundStep.dropFlow_eq (h : InboundStep s t ps) (hcfg : t.cfg = s.cfg) :
    dropFlow t = dropFlow s ++ ps.filter (fun p => decide (Unrouted s.cfg (fnOf p))) := by
  unfold dropFlow
  cases h with
  | enter o ho hout hT hW hp =>
    rw [hout, hp, hcfg, List.filterMap_append, filterMap_of_handsOut ?_ ho]
    · simp
    · intro e he
      cases e with
      | log => cases he
      | _ => rfl
  | toTest p he hout hT hW hp hf | toWifi p he hout hT hW hp hf => simp [he, hout, hp, hcfg, Unrouted, hf]
  | drop p x he hout hT hW hp hf => simp [he, hout, hp, hcfg, hf.1, hf.2]
  | takeTest p he hout hT hW hp | takeWifi p he hout hT hW hp => simp [he, hout, hp, hcfg]

end Inbound

end Sys2Proof.Machine

namespace Sys2Proof.Proofs

open Sys2Proof Sys2Proof.Machine

/-- Settles O47: each of the six things a transition can do to the inbound path, seen from the three classes. -/
theorem inboundPacketsKeepOrderAndCount : Obligations.InboundPacketsKeepOrderAndCount := by
  intro s t i hb h
  have hc := (exec_next h).1
  have hcfg := (exec_cfg_coupling h).1
  have hstep := exec_inboundStep hb h
  have hcodes : s.cfg.fnTest ≠ s.cfg.fnWifi := hc.2.2.1
  exact ⟨hstep.testFlow_eq hcodes hcfg, hstep.wifiFlow_eq hcodes hcfg, hstep.dropFlow_eq hcfg⟩

end Sys2Proof.Proofs

namespace Sys2Proof.Machine

open Sys2Proof

/-! ### The outbound path under a transition -/

section Outbound

variable {i : Instr} {s t : State} {ps : List Packet}

/-- Outside the holding phases `txhold` is empty. -/
theorem HoldMatchesPhase.txhold_none (h : HoldMatchesPhase s) {ph : TxPhase} (hp : s.txph = ph)
    (he : holdPhase ph = false) : s.txhold = none := by
  unfold HoldMatchesPhase at h
  rw [hp, he] at h
  exact Option.not_isSome_iff_eq_none.1 (Bool.eq_false_iff.1 h)

theorem submittedBy_submitOutbound {p : Packet} (hg : IsPacket s.cfg p ∧ s.hasRoom .roq) :
    submittedBy (.submitOutbound p) s = [p] := if_pos hg

/-- Packets move along the outbound path in order (R74) and enter it at ROQ; only the byte that ends a data frame takes
one off it. -/
theorem Fires.outboundPipe_eq (h : Fires i s t) (hb : ofBlock i = true) (he : i ≠ .txEmitByte) (hh : HoldMatchesPhase s) :
    outboundPipe t = outboundPipe s ++ submittedBy i s := by
  cases h with
  | encodeData | encodeSentinel | decodeNext | transportSend | transportReceive | postInbound | nextOutbound
  | sigRaise | sigWait | sigPoll => cases hb
  | txEmitByte => exact absurd rfl he
  | submitOutbound hp hr => rw [submittedBy_submitOutbound ⟨hp, hr⟩]; simp [outboundPipe]
  | bdFetch hn hq => simp [outboundPipe, submittedBy, hn, hq]
  | bdSend hp => simp [outboundPipe, submittedBy, hp]
  | txCheckDeq hp hq => simp [outboundPipe, submittedBy, hp, hq, hh.txhold_none hp rfl]
  | txHoldWakeSend hx hp | txGrantEmitDoneGo hx hp => simp [outboundPipe, submittedBy, hp, hx, frameOf]
  | txDataEmitDone hp hnil => simp [outboundPipe, submittedBy, hp, hnil]
  | txDelayExpire hp | txSyncEmitDone hp | txSyncPollHit hp | txSyncPollMiss hp | txCheckEmpty hp
  | txIdleWakeGrant hp | txIdleWakeOutbound hp | txIdleEmitDone hp | txHoldWakeGrant hp | txHoldWakeBoth hp
  | txGrantEmitDoneBack hp => simp [outboundPipe, submittedBy, hp]
  | _ => exact (List.append_nil _).symm

/-- A byte that is not the last of a data frame takes no packet off the path. -/
theorem Fires.outboundPipe_write (h : Fires .txEmitByte s t) (hn : ¬ (s.txph = .dataEmit ∧ t.txout = [])) :
    outboundPipe t = outboundPipe s := by
  cases h with
  | txEmitByte hb => simp [outboundPipe, hb, hn]

/-- The last byte of a data frame takes the held packet off the path. -/
theorem Fires.outboundPipe_writeLast (h : Fires .txEmitByte s t) {p : Packet} (hp : s.txph = .dataEmit)
    (hhold : s.txhold = some p) (hlast : t.txout = []) : outboundPipe s = p :: outboundPipe t := by
  cases h with
  | txEmitByte hb => simp_all [outboundPipe]

theorem dataOf_snoc_data (fs : List Frame) (p : Packet) : dataOf (fs ++ [.data p]) = dataOf fs ++ [p] := by
  simp [dataOf]

theorem dataOf_snoc_sentinel (fs : List Frame) : dataOf (fs ++ [.sentinel]) = dataOf fs := by
  simp [dataOf]

/-- R146 keeps the account: the byte belongs to the frame under way, and the last byte moves the frame's packet, if it has
one, from the path to the line. -/
theorem Fires.write_keeps_account (h : Fires .txEmitByte s t) {b : Byte} (hout : s.txout = b :: t.txout)
    (hbytes : txdBytes t.out = txdBytes s.out ++ [b]) (hph : t.txph = s.txph) (hhold : t.txhold = s.txhold)
    (hp : PacketsSized s) (ha : OutboundAccount ps s) : OutboundAccount ps t := by
  obtain ⟨fs, part, hfs, hline, hps, hpart⟩ := ha
  unfold OutboundAccount
  rw [h.cfg_eq, hph, hhold]
  rw [hout] at hpart
  obtain ⟨-, hnil⟩ | ⟨-, hdata, p, hx, hframe⟩ | ⟨-, hdata, hframe⟩ := hpart
  · cases hnil
  · by_cases hlast : t.txout = []
    · have hok : FrameOk s.cfg (.data p) := hp.2 p (.inl hx)
      have hwhole : part ++ [b] = frameBytes (.data p) := by rw [hlast] at hframe; exact hframe
      refine ⟨fs ++ [.data p], [], frameOk_snoc hfs hok,
        hbytes.trans (flatMap_frameBytes_snoc hline hwhole), ?_, .inl ⟨rfl, hlast⟩⟩
      rw [hps, h.outboundPipe_writeLast hdata hx hlast, dataOf_snoc_data, List.append_assoc, List.singleton_append]
    · refine ⟨fs, part ++ [b], hfs, by rw [hbytes, hline, List.append_assoc], ?_,
        .inr (.inl ⟨hlast, hdata, p, hx, by rw [List.append_assoc]; exact hframe⟩)⟩
      rw [hps, h.outboundPipe_write fun hn => hlast hn.2]
  · have hpipe := h.outboundPipe_write fun hn => hdata hn.1
    by_cases hlast : t.txout = []
    · have hok : FrameOk s.cfg .sentinel := trivial
      have hwhole : part ++ [b] = frameBytes .sentinel := by rw [hlast] at hframe; exact hframe
      refine ⟨fs ++ [.sentinel], [], frameOk_snoc hfs hok,
        hbytes.trans (flatMap_frameBytes_snoc hline hwhole), ?_, .inl ⟨rfl, hlast⟩⟩
      rw [hps, hpipe, dataOf_snoc_sentinel]
    · refine ⟨fs, part ++ [b], hfs, by rw [hbytes, hline, List.append_assoc], ?_,
        .inr (.inr ⟨hlast, hdata, by rw [List.append_assoc]; exact hframe⟩)⟩
      rw [hps, hpipe]

/-- With nothing in `txout` the frame under way is complete. -/
theorem OutboundAccount.complete (ha : OutboundAccount ps s) (hnil : s.txout = []) :
    ∃ fs : List Frame, (∀ f ∈ fs, FrameOk s.cfg f) ∧ txdBytes s.out = fs.flatMap frameBytes ++ [] ∧
      ps = dataOf fs ++ outboundPipe s := by
  obtain ⟨fs, part, hfs, hline, hps, ⟨rfl, -⟩ | ⟨hne, -⟩ | ⟨hne, -⟩⟩ := ha
  · exact ⟨fs, hfs, hline, hps⟩
  · exact absurd hnil hne
  · exact absurd hnil hne

/-- Every transition of the composed block keeps the account, with the packet it submits at the end. -/
theorem Fires.keeps_account (h : Fires i s t) (hb : ofBlock i = true) (hi : Inv s) (ha : OutboundAccount ps s) :
    OutboundAccount (ps ++ submittedBy i s) t := by
  have hcfg := h.cfg_eq
  have hpipe := fun he => h.outboundPipe_eq hb he hi.hold
  cases h.lineStep hi.txout with
  | write b he hout hbytes hph hhold =>
    subst he
    have hkept := h.write_keeps_account hout hbytes hph hhold hi.packets ha
    exact (List.append_nil ps).symm ▸ hkept
  | still he hout hbytes hs =>
    obtain ⟨hph, hhold⟩ | hnil := hs
    · obtain ⟨fs, part, hfs, hline, hps, hpart⟩ := ha
      unfold OutboundAccount
      rw [hcfg, hbytes, hout, hph, hhold, hpipe he, hps]
      exact ⟨fs, part, hfs, hline, List.append_assoc _ _ _, hpart⟩
    · obtain ⟨fs, hfs, hline, hps⟩ := ha.complete hnil
      unfold OutboundAccount
      rw [hcfg, hbytes, hout, hpipe he, hps]
      exact ⟨fs, [], hfs, hline, List.append_assoc _ _ _, .inl ⟨rfl, hnil⟩⟩
  | loadSent he hnil hout hbytes _ hph =>
    obtain ⟨fs, hfs, hline, hps⟩ := ha.complete hnil
    unfold OutboundAccount
    rw [hcfg, hbytes, hout, hpipe he, hps]
    exact ⟨fs, [], hfs, hline, List.append_assoc _ _ _, .inr (.inr ⟨List.cons_ne_nil _ _, hph, rfl⟩)⟩
  | loadData p he hnil hout hbytes _ hhold hph =>
    obtain ⟨fs, hfs, hline, hps⟩ := ha.complete hnil
    unfold OutboundAccount
    rw [hcfg, hbytes, hout, hpipe he, hps]
    exact ⟨fs, [], hfs, hline, List.append_assoc _ _ _, .inr (.inl ⟨List.cons_ne_nil _ _, hph, p, hhold, rfl⟩)⟩

/-- An instruction that answers the state unchanged has submitted nothing: SUBMIT lengthens `ROQ`. -/
theorem submittedBy_of_held (h : exec i s = .next s) : submittedBy i s = [] := by
  cases i with
  | submitOutbound p =>
    refine if_neg fun ⟨_, hr⟩ => ?_
    obtain ⟨hc, -, h⟩ := offered_next h
    rw [guarded_fires hc hr] at h
    have hroq := congrArg State.roq (Host.Outcome.next.inj h)
    simp [State.enq] at hroq
  | _ => rfl

end Outbound

/-! ### The first sentinel -/

section FirstSentinel

variable {i : Instr} {s t : State} {k : Nat}

theorem firstSentinel_delay (hp : s.txph = .delay) :
    FirstSentinel k s ↔ txdBytes s.out = [] ∧ s.txout = [] ∧ s.cfg.tInit ≤ s.txtimer + k := by
  simp only [FirstSentinel, hp]

theorem firstSentinel_syncEmit (hp : s.txph = .syncEmit) :
    FirstSentinel k s ↔ s.cfg.tInit ≤ k ∧ (txdBytes s.out ++ s.txout = sent ∨ sent <+: txdBytes s.out) := by
  simp only [FirstSentinel, hp]

theorem firstSentinel_later {ph : TxPhase} (hp : s.txph = ph) (hd : ph ≠ .delay) (he : ph ≠ .syncEmit) :
    FirstSentinel k s ↔ s.cfg.tInit ≤ k ∧ sent <+: txdBytes s.out := by
  unfold FirstSentinel
  rw [hp]
  cases ph with
  | delay => exact absurd rfl hd
  | syncEmit => exact absurd rfl he
  | _ => exact Iff.rfl

/-- It speaks of the TX engine, the bytes on TXD and `T_INIT` alone. -/
theorem FirstSentinel.congr (h : FirstSentinel k s) (hcfg : t.cfg = s.cfg) (hph : t.txph = s.txph)
    (htimer : t.txtimer = s.txtimer) (hout : t.txout = s.txout) (hbytes : txdBytes t.out = txdBytes s.out) :
    FirstSentinel k t := by
  unfold FirstSentinel at h ⊢
  rw [hcfg, hph, htimer, hout, hbytes]
  exact h

/-- A tick is counted, and takes at most 1 off `txtimer` (R144). -/
theorem FirstSentinel.tick (h : FirstSentinel k s) (hcfg : t.cfg = s.cfg) (hph : t.txph = s.txph)
    (htimer : s.txtimer ≤ t.txtimer + 1) (hout : t.txout = s.txout) (hbytes : txdBytes t.out = txdBytes s.out) :
    FirstSentinel (k + 1) t := by
  by_cases hd : s.txph = .delay
  · obtain ⟨hnone, hnil, hle⟩ := (firstSentinel_delay hd).1 h
    rw [firstSentinel_delay (hph.trans hd), hcfg, hout, hbytes]
    exact ⟨hnone, hnil, by omega⟩
  · by_cases he : s.txph = .syncEmit
    · obtain ⟨hle, hs⟩ := (firstSentinel_syncEmit he).1 h
      rw [firstSentinel_syncEmit (hph.trans he), hcfg, hout, hbytes]
      exact ⟨Nat.le_succ_of_le hle, hs⟩
    · obtain ⟨hle, hs⟩ := (firstSentinel_later rfl hd he).1 h
      rw [firstSentinel_later hph hd he, hcfg, hbytes]
      exact ⟨Nat.le_succ_of_le hle, hs⟩

/-- R146: in TX_DELAY there is no byte to write, in TX_SYNC_EMIT it is the sentinel's next, and later it follows the
sentinel. -/
theorem FirstSentinel.emit (h : FirstSentinel k s) {b : Byte} (hcfg : t.cfg = s.cfg) (hph : t.txph = s.txph)
    (hout : s.txout = b :: t.txout) (hbytes : txdBytes t.out = txdBytes s.out ++ [b]) : FirstSentinel k t := by
  by_cases hd : s.txph = .delay
  · obtain ⟨-, hnil, -⟩ := (firstSentinel_delay hd).1 h
    cases hnil.symm.trans hout
  · by_cases he : s.txph = .syncEmit
    · obtain ⟨hle, hs⟩ := (firstSentinel_syncEmit he).1 h
      rw [hout] at hs
      rw [firstSentinel_syncEmit (hph.trans he), hcfg, hbytes, List.append_assoc]
      exact ⟨hle, hs.imp id fun hw => hw.trans (List.prefix_append _ _)⟩
    · obtain ⟨hle, hs⟩ := (firstSentinel_later rfl hd he).1 h
      rw [firstSentinel_later hph hd he, hcfg, hbytes]
      exact ⟨hle, hs.trans (List.prefix_append _ _)⟩

/-- R263 through the phase graph: TX_DELAY ends with `T_INIT` ticks counted and the sentinel loaded, TX_SYNC_EMIT with the
sentinel written, and no later phase takes a byte back. -/
theorem Fires.keeps_firstSentinel (h : Fires i s t) (hi : i ≠ .txTick) (hs : FirstSentinel k s) : FirstSentinel k t := by
  cases h with
  | txTick => exact absurd rfl hi
  | txDelayExpire hp hz =>
    obtain ⟨hnone, -, hle⟩ := (firstSentinel_delay hp).1 hs
    rw [hz, Nat.zero_add] at hle
    exact (firstSentinel_syncEmit rfl).2 ⟨hle, .inl (by rw [hnone]; rfl)⟩
  | txEmitByte hb => exact hs.emit rfl rfl hb (by simp)
  | txSyncEmitDone hp hnil =>
    obtain ⟨hle, hw⟩ := (firstSentinel_syncEmit hp).1 hs
    rw [hnil, List.append_nil] at hw
    exact (firstSentinel_later rfl (by nofun) (by nofun)).2 ⟨hle, hw.elim (fun he => he ▸ List.prefix_rfl) id⟩
  | txSyncPollMiss hp =>
    obtain ⟨hle, hw⟩ := (firstSentinel_later hp (by nofun) (by nofun)).1 hs
    exact (firstSentinel_syncEmit rfl).2 ⟨hle, .inr hw⟩
  | txSyncPollHit hp | txCheckEmpty hp | txCheckDeq hp | txIdleWakeGrant hp | txIdleWakeOutbound hp
  | txIdleEmitDone hp | txHoldWakeGrant hp | txHoldWakeBoth hp | txHoldWakeSend _ hp | txGrantEmitDoneBack hp
  | txGrantEmitDoneGo _ hp | txDataEmitDone hp =>
    exact (firstSentinel_later rfl (by nofun) (by nofun)).2 ((firstSentinel_later hp (by nofun) (by nofun)).1 hs)
  | _ => exact hs.congr rfl rfl rfl rfl (by simp)

end FirstSentinel

end Sys2Proof.Machine

namespace Sys2Proof.Proofs

open Sys2Proof Sys2Proof.Machine

/-- Settles O48: reset has nothing on its way, and every transition keeps the account. -/
theorem outboundPacketsKeepOrderAndCount : Obligations.OutboundPacketsKeepOrderAndCount := by
  refine ⟨fun c len idx buf line moves n => ?reset, fun ps s t i hi ha hb h => ?step⟩
  case reset => exact ⟨[], [], nofun, rfl, rfl, .inl ⟨rfl, rfl⟩⟩
  case step =>
    obtain ⟨-, rfl | hf⟩ := exec_next h
    · rw [submittedBy_of_held h, List.append_nil]; exact ha
    · exact hf.keeps_account hb hi ha

/-- Settles O55: a tick is counted even where it is ignored, and every other instruction keeps the count. -/
theorem firstSentinelIsKept : Obligations.FirstSentinelIsKept := by
  refine ⟨fun c len idx buf line moves n => ?reset, fun k s t i hs h => ?step⟩
  case reset => exact ⟨rfl, rfl, Nat.le_refl _⟩
  case step =>
    obtain ⟨-, hf⟩ := exec_next h
    by_cases hi : i = .txTick
    · subst hi
      rw [if_pos rfl]
      obtain rfl | hf := hf
      · exact hs.tick rfl rfl (Nat.le_succ _) rfl rfl
      · cases hf with
        | txTick => exact hs.tick rfl rfl (by dsimp only; omega) rfl rfl
    · rw [if_neg hi]
      obtain rfl | hf := hf
      · exact hs
      · exact hf.keeps_firstSentinel hi hs

end Sys2Proof.Proofs

namespace Sys2Proof.Machine

open Sys2Proof

/-! ### No fault where R47 item 6 holds -/

/-- The transition does not stop the machine as a fault. -/
def NoFault (r : Result) : Prop := ∀ e, r ≠ .fault e

section NoFault

variable {i : Instr} {s t : State}

theorem noFault_next : NoFault (.next s) := nofun

theorem noFault_refused {e : Refusal} : NoFault (.refused e) := nofun

/-- A guarded transition faults only where it fires. -/
theorem noFault_guarded {g : Prop} [Decidable g] {r : Result} (h : g → NoFault r) : NoFault (guarded s g r) := by
  unfold guarded
  split
  · split
    · rename_i hg; exact h hg
    · exact noFault_next
  · exact noFault_refused

theorem noFault_guarded_next {g : Prop} [Decidable g] : NoFault (guarded s g (.next t)) :=
  noFault_guarded fun _ => noFault_next

theorem noFault_offered {p : Packet} {r : Result} (h : NoFault r) : NoFault (offered s p r) := by
  refine noFault_guarded fun _ => ?_
  split
  · exact h
  · exact noFault_refused

theorem noFault_andThen {r : Result} {f : State → Result} (hr : NoFault r) (hf : ∀ u, r = .next u → NoFault (f u)) :
    NoFault (andThen r f) := by
  cases r with
  | next u => exact hf u rfl
  | fault e => exact absurd rfl (hr e)
  | refused e => exact noFault_refused

theorem noFault_fromLine {accepts : Byte → Bool} {f : Byte → State → Result}
    (hf : ∀ b rest, NoFault (f b { s with rxd := rest })) : NoFault (fromLine s accepts f) := by
  unfold fromLine
  split
  · exact noFault_guarded_next
  · split
    · exact hf _ _
    · exact noFault_guarded_next

theorem noFault_routeHeld {code : Byte} {q : QueueId} : NoFault (routeHeld code q s) := by
  unfold routeHeld
  split <;> exact noFault_guarded_next

theorem noFault_dropHeld : NoFault (dropHeld s) := by
  unfold dropHeld
  split <;> exact noFault_guarded_next

theorem noFault_takeFrom {q : QueueId} {give : Packet → Output} : NoFault (takeFrom q give s) := by
  unfold takeFrom
  split <;> exact noFault_guarded_next

/-- R128: in RX_DATA the index is below the length, which is at most `MTU`. -/
theorem noFault_takeData {b : Byte} (hx : RxRange s) : NoFault (takeData b s) := by
  obtain ⟨hbuf, -, hdata, -⟩ := hx
  refine noFault_guarded fun hp => ?_
  obtain ⟨-, hn, hlt⟩ := hdata hp
  rw [if_pos (by omega)]
  exact noFault_next

/-- R161: in RX_DELIVER the length is 1 to `MTU`. -/
theorem noFault_deliver (hx : RxRange s) : NoFault (deliver s) := by
  obtain ⟨hbuf, -, -, hdeliver⟩ := hx
  refine noFault_guarded fun hg => ?_
  obtain ⟨h1, hn, -⟩ := hdeliver hg.1
  rw [if_pos ⟨h1, by omega⟩]
  exact noFault_next

/-- No fault, and item 6 in the next state: what one transition after another passes on. -/
def RxSafe (r : Result) : Prop := NoFault r ∧ ∀ t, r = .next t → RxRange t

/-- An instruction that does not fault passes item 6 on. -/
theorem rxSafe_exec (i : Instr) (hx : RxRange s) (hn : NoFault (exec i s)) : RxSafe (exec i s) := by
  refine ⟨hn, fun t h => ?_⟩
  obtain ⟨hc, rfl | hf⟩ := exec_next h
  · exact hx
  · exact hf.keeps_rxRange hc hx

theorem rxSafe_andThen {r : Result} {f : State → Result} (hr : RxSafe r) (hf : ∀ u, RxRange u → RxSafe (f u)) :
    RxSafe (andThen r f) := by
  obtain ⟨hn, hx⟩ := hr
  cases r with
  | next u => exact hf u (hx u rfl)
  | fault e => exact absurd rfl (hn e)
  | refused e => exact ⟨noFault_refused, fun t h => by cases h⟩

/-- Data bytes one after the other, each a DATA row. -/
theorem rxSafe_takeAll (p : List Byte) : ∀ {s : State}, RxRange s → RxSafe (takeAll p s) := by
  induction p with
  | nil => exact fun hx => ⟨noFault_next, fun t h => by cases h; exact hx⟩
  | cons b bs ih => exact fun hx => rxSafe_andThen (rxSafe_exec (.data b) hx (noFault_takeData hx)) fun _ hu => ih hu

/-- A whole frame is a START, a LENOK and DATA rows, then RX_DELIVER. -/
theorem noFault_execDataFrame {p : Packet} (hx : RxRange s) : NoFault (execDataFrame p s) := by
  refine noFault_guarded fun _ => (rxSafe_andThen (rxSafe_andThen (rxSafe_andThen ?start fun u hu => ?len)
    fun u hu => ?data) fun u hu => ?deliver).1
  case start => exact rxSafe_exec .start hx noFault_guarded_next
  case len => exact rxSafe_exec (.lenok _) hu noFault_guarded_next
  case data => exact rxSafe_takeAll p hu
  case deliver => exact rxSafe_exec .rxDeliver hu (noFault_deliver hu)

/-- No row faults where item 6 holds. The cases are grouped by the shared operation the row is made of. -/
theorem exec_noFault (i : Instr) (hx : RxRange s) : NoFault (exec i s) := by
  cases i with
  | dataFrame p => exact noFault_execDataFrame hx
  | sentinel =>
    refine noFault_guarded fun _ => (rxSafe_andThen (rxSafe_exec .start hx noFault_guarded_next) fun u hu => ?_).1
    exact rxSafe_exec .len0 hu noFault_guarded_next
  | data b => exact noFault_takeData hx
  | rxDeliver => exact noFault_deliver hx
  | rxDataByte => exact noFault_fromLine fun _ _ => noFault_takeData hx
  | rxJunk | rxStart | rxLenSentinel | rxLenData | rxLenOver => exact noFault_fromLine fun _ _ => noFault_guarded_next
  | junk _ | start | len0 | lenok _ | lenover _ | encodeSentinel | decodeNext _ | sigRaise _ | sigWait _ | sigPoll
  | txTick | txDelayExpire | txSyncEmitDone | txSyncPollHit | txSyncPollMiss | txCheckEmpty
  | txIdleWakeGrant | txIdleWakeOutbound | txIdleEmitDone | txHoldWakeGrant | txHoldWakeBoth | txDataEmitDone =>
    exact noFault_guarded_next
  | encodeData _ =>
    refine noFault_guarded fun _ => ?_
    split
    · exact noFault_next
    · exact noFault_refused
  | transportSend _ | postInbound _ | submitOutbound _ => exact noFault_offered noFault_guarded_next
  | transportReceive | nextOutbound | receiveForTest | receiveForWifiCtrl => exact noFault_takeFrom
  | routeTest | routeWifiCtrl | rtRouteTest | rtRouteWifi => exact noFault_routeHeld
  | rtDrop => exact noFault_dropHeld
  | routeUnrouted f =>
    simp only [exec, execRouteUnrouted]
    split
    · exact noFault_dropHeld
    · exact noFault_guarded_next
  | txEmitByte | txCheckDeq | txHoldWakeSend | txGrantEmitDoneBack | txGrantEmitDoneGo
  | rtFetch | buFetch | buPost | bdFetch | bdSend =>
    simp only [exec, execTxEmitByte, execTxCheckDeq, execTxHoldWakeSend, execTxGrantEmitDoneBack,
      execTxGrantEmitDoneGo, execRtFetch, execBuFetch, execBuPost, execBdFetch, execBdSend]
    split <;> exact noFault_guarded_next

theorem environment_noFault (m : Move) : NoFault (environment m s) := by
  cases m <;> exact noFault_guarded_next

theorem step_noFault (hx : RxRange s) : NoFault (step s) := by
  cases hs : s.sched with
  | nil => rw [step_of_sched_nil hs]; exact noFault_guarded_next
  | cons m ms =>
    cases hf : fetch m { s with sched := ms } with
    | none => rw [step_of_fetch_none hs hf]; exact environment_noFault m
    | some x =>
      obtain ⟨l, hu⟩ := fetch_state (i := x.1) (u := x.2) hf
      rw [step_of_fetch hs hf, hu]
      exact exec_noFault x.1 hx

end NoFault

/-! ### Who takes the bytes that wait at RXD -/

section Rxd

variable {i : Instr} {s t u : State} {m : Move}

/-- The six steps that take a byte from RXD (spec/10_state.md R52). -/
def takesFromRxd : Instr → Bool
  | .rxJunk | .rxStart | .rxLenSentinel | .rxLenData | .rxLenOver | .rxDataByte => true
  | _ => false

theorem rxOwn_of_takesFromRxd (h : takesFromRxd i = true) : rxOwn i = true := by
  cases i with
  | rxJunk | rxStart | rxLenSentinel | rxLenData | rxLenOver | rxDataByte => rfl
  | _ => cases h

/-- A transition leaves the waiting bytes alone, or is one of the six and takes the oldest. -/
theorem Fires.rxd_next (h : Fires i s t) :
    t.rxd = s.rxd ∨ takesFromRxd i = true ∧ ∃ b, s.rxd = b :: t.rxd := by
  cases h with
  | rxJunk hb | rxStart hb | rxLenSentinel hb | rxLenData hb | rxLenOver hb | rxDataByte hb => exact .inr ⟨rfl, _, hb⟩
  | _ => exact .inl rfl

theorem takesFromRxd_txTurn : takesFromRxd (txTurn s) = false := by
  unfold txTurn
  repeat' split
  all_goals rfl

theorem takesFromRxd_rtTurn : takesFromRxd (rtTurn s) = false := by
  unfold rtTurn decodeRoute
  repeat' split
  all_goals rfl

/-- A byte's class is a BYTE row (R100). -/
theorem takesFromRxd_of_decodeByte {ph : RxPhase} {mtu : Nat} {b : Byte} (h : decodeByte ph mtu b = .ok i) :
    takesFromRxd i = false := by
  cases ph with
  | hunt => cases h; split <;> rfl
  | len =>
    cases h
    split
    · rfl
    · split <;> rfl
  | data => cases h; rfl
  | deliver => cases h

/-- A whole frame at the front of the line is a FRAME row (R90), and the bytes after it keep their order. -/
theorem decodeFrame_ok {ph : RxPhase} {mtu : Nat} {bs rest : List Byte} (h : decodeFrame ph mtu bs = .ok (i, rest)) :
    takesFromRxd i = false ∧ ∃ taken, bs = taken ++ rest := by
  unfold decodeFrame at h
  cases bs with
  | nil => split_ifs at h
  | cons b tail =>
    cases tail with
    | nil => dsimp only at h; split_ifs at h
    | cons n data =>
      dsimp only at h
      split_ifs at h <;> cases h
      · exact ⟨rfl, [b, n], rfl⟩
      · exact ⟨rfl, b :: n :: data.take n.toNat, by simp⟩

/-- Nothing that a phase, a latch, a byte or a frame selects takes a further byte: the six are fired by name. -/
theorem Fetches.fire_of_takesFromRxd (h : Fetches s m i u) (hi : takesFromRxd i = true) : m = .fire i ∧ u = s := by
  cases h with
  | fire => exact ⟨rfl, rfl⟩
  | deliver => cases hi
  | tx => exact absurd hi (Bool.eq_false_iff.1 takesFromRxd_txTurn)
  | rt => exact absurd hi (Bool.eq_false_iff.1 takesFromRxd_rtTurn)
  | byte _ _ hd => exact absurd hi (Bool.eq_false_iff.1 (takesFromRxd_of_decodeByte hd))
  | frame hd => exact absurd hi (Bool.eq_false_iff.1 (decodeFrame_ok hd).1)
  | bu => unfold buTurn at hi; split at hi <;> cases hi
  | bd => unfold bdTurn at hi; split at hi <;> cases hi

/-- What a move takes from the front of the waiting bytes before its instruction runs: a frame's bytes, the RX engine's
one byte, or none. -/
theorem Fetches.rxd_split (h : Fetches s m i u) :
    ∃ taken, s.rxd = taken ++ u.rxd ∧ (taken ≠ [] → m = .frame ∨ taken.length = 1 ∧ m = .agent .rx) := by
  cases h with
  | byte _ hr => exact ⟨[_], hr, fun _ => .inr ⟨rfl, rfl⟩⟩
  | frame hd =>
    obtain ⟨-, taken, ht⟩ := decodeFrame_ok hd
    exact ⟨taken, ht, fun _ => .inl rfl⟩
  | _ => exact ⟨[], rfl, fun hn => absurd rfl hn⟩

/-- What a move that attempts an instruction takes from the front of the waiting bytes in all. -/
theorem Fetches.exec_rxd (h : Fetches s m i u) (hx : exec i u = .next t) :
    ∃ taken, s.rxd = taken ++ t.rxd ∧ (taken ≠ [] →
      m = .frame ∨ taken.length = 1 ∧ (m = .agent .rx ∨ ∃ j, m = .fire j ∧ rxOwn j = true)) := by
  obtain ⟨-, hf⟩ := exec_next hx
  have hrxd : t.rxd = u.rxd ∨ takesFromRxd i = true ∧ ∃ b, u.rxd = b :: t.rxd := by
    obtain rfl | hf := hf
    · exact .inl rfl
    · exact hf.rxd_next
  obtain hsame | ⟨hi, b, hb⟩ := hrxd
  · obtain ⟨taken, ht, hwho⟩ := h.rxd_split
    refine ⟨taken, hsame ▸ ht, fun hn => (hwho hn).imp id fun ⟨hl, hm⟩ => ⟨hl, .inl hm⟩⟩
  · obtain ⟨rfl, rfl⟩ := h.fire_of_takesFromRxd hi
    exact ⟨[b], hb, fun _ => .inr ⟨rfl, .inr ⟨i, rfl, rxOwn_of_takesFromRxd hi⟩⟩⟩

/-- What a step does to the waiting bytes: one joins at the end by its own move, or some are taken from the front. -/
theorem step_rxd (h : step s = .next t) :
    (∃ b ms, s.sched = .arrive b :: ms ∧ t.rxd = s.rxd ++ [b]) ∨
    ∃ taken, s.rxd = taken ++ t.rxd ∧ (taken ≠ [] → ∃ m ms, s.sched = m :: ms ∧
      (m = .frame ∨ taken.length = 1 ∧ (m = .agent .rx ∨ ∃ j, m = .fire j ∧ rxOwn j = true))) := by
  obtain ⟨-, ⟨-, rfl⟩ | ⟨m, ms, hs, rfl | ⟨b, rfl, rfl⟩ | ⟨-, rfl⟩ | ⟨i, l, hf, hx⟩⟩⟩ := step_next h
  · exact .inr ⟨[], rfl, fun hn => absurd rfl hn⟩
  · exact .inr ⟨[], rfl, fun hn => absurd rfl hn⟩
  · exact .inl ⟨b, ms, hs, rfl⟩
  · exact .inr ⟨[], rfl, fun hn => absurd rfl hn⟩
  · obtain ⟨taken, ht, hwho⟩ := (fetch_some hf).exec_rxd hx
    exact .inr ⟨taken, ht, fun hn => ⟨m, ms, hs, hwho hn⟩⟩

end Rxd

/-! ### Turns -/

section Turns

variable {i : Instr} {s : State}

theorem rtTurn_of_none (h : s.rthold = none) : rtTurn s = .rtFetch := by unfold rtTurn; rw [h]

theorem rtTurn_of_some {p : Packet} (h : s.rthold = some p) : rtTurn s = decodeRoute s.cfg (fnOf p) := by
  unfold rtTurn; rw [h]

theorem decodeRoute_test {c : Config} {f : Option Byte} (h : f = some c.fnTest) : decodeRoute c f = .routeTest :=
  if_pos h

theorem decodeRoute_wifi {c : Config} {f : Option Byte} (hn : f ≠ some c.fnTest) (h : f = some c.fnWifi) :
    decodeRoute c f = .routeWifiCtrl :=
  (if_neg hn).trans (if_pos h)

theorem decodeRoute_unrouted {c : Config} {f : Option Byte} (h : Unrouted c f) : decodeRoute c f = .routeUnrouted f :=
  (if_neg h.1).trans (if_neg h.2)

/-- Outside RX_DELIVER the RX engine's turn is the row of the byte that RXD offers. -/
theorem rxTurn_of_byte {b : Byte} {rest : List Byte} (hn : s.rxph ≠ .deliver) (hr : s.rxd = b :: rest)
    (hd : decodeByte s.rxph s.cfg.mtu b = .ok i) : rxTurn s = some (i, { s with rxd := rest }) := by
  unfold rxTurn
  split
  · rename_i hp; exact absurd hp hn
  · rename_i he _; cases he.symm.trans hr
  · rename_i he _
    cases he.symm.trans hr
    rw [hd]; rfl

theorem rxTurn_of_deliver (hd : s.rxph = .deliver) : rxTurn s = some (.rxDeliver, s) := by
  unfold rxTurn; rw [hd]

theorem rxTurn_of_nil (hn : s.rxph ≠ .deliver) (hr : s.rxd = []) : rxTurn s = none := by
  unfold rxTurn
  split
  · rename_i hp; exact absurd hp hn
  · rfl
  · rename_i he _; cases he.symm.trans hr

/-- In the composed block nobody fires by name what the block does not fire, nor a FRAME or BYTE row. -/
theorem fireable_bridged_of_outside (h : ofBlock i = false ∨
    ∃ p b, i ∈ [.sentinel, .dataFrame p, .junk b, .start, .len0, .lenok b, .lenover b, .data b]) :
    fireable .bridged i = false := by
  obtain h | ⟨p, b, h⟩ := h
  · cases i with
    | encodeData | encodeSentinel | decodeNext | transportSend | transportReceive | postInbound | nextOutbound
    | sigRaise | sigWait | sigPoll => rfl
    | _ => cases h
  · simp only [List.mem_cons, List.not_mem_nil, or_false] at h
    obtain rfl | rfl | rfl | rfl | rfl | rfl | rfl | rfl := h <;> rfl

end Turns

end Sys2Proof.Machine

namespace Sys2Proof.Proofs

open Sys2Proof Sys2Proof.Machine

/-- Settles O37: only R128 and R161 index `rxbuf`, and item 6 keeps both inside it. -/
theorem stepNeverFaultsUnderInvariant : Obligations.StepNeverFaultsUnderInvariant :=
  fun _ e hi => step_noFault hi.rx e

/-- Settles O39. -/
theorem inertQueuesAreNeverTouched : Obligations.InertQueuesAreNeverTouched := by
  intro s t i h
  obtain ⟨-, rfl | hf⟩ := exec_next h
  · exact ⟨rfl, rfl⟩
  · exact hf.inert_eq

/-- Settles O40: for each agent, its rows are looked up one by one, and no other row is its own. -/
theorem agentsWriteOnlyWhatTheyOwn : Obligations.AgentsWriteOnlyWhatTheyOwn := by
  intro s t i h
  obtain ⟨-, rfl | hf⟩ := exec_next h
  · simp
  · refine ⟨fun hi => ?rx, fun hi => ?tx, fun hi => ?rt, fun hi => ?bu, fun hi => ?bd⟩
    case rx =>
      cases hf with
      | sentinel | dataFrame | dataFrameWaits | junk | start | len0 | lenok | lenover | data | rxJunk | rxStart
      | rxLenSentinel | rxLenData | rxLenOver | rxDataByte | rxDeliver => simp
      | _ => cases hi
    case tx =>
      cases hf with
      | txTick | txDelayExpire | txEmitByte | txSyncEmitDone | txSyncPollHit | txSyncPollMiss | txCheckEmpty
      | txCheckDeq | txIdleWakeGrant | txIdleWakeOutbound | txIdleEmitDone | txHoldWakeGrant | txHoldWakeBoth
      | txHoldWakeSend | txGrantEmitDoneBack | txGrantEmitDoneGo | txDataEmitDone => simp
      | _ => simp [txOwn] at hi
    case rt =>
      cases hf with
      | routeTest | routeWifiCtrl | routeUnrouted | rtFetch | rtRouteTest | rtRouteWifi | rtDrop => simp
      | _ => cases hi
    case bu =>
      cases hf with
      | buFetch | buPost => simp
      | _ => simp at hi
    case bd =>
      cases hf with
      | bdFetch | bdSend => simp
      | _ => simp at hi

/-- Settles O56: a port's move fires its one row, whose effect is the port's; the other moves may not fire anything. -/
theorem outsidersReachOnlyThePorts : Obligations.OutsidersReachOnlyThePorts := by
  intro s t ms hb h
  have hc := (step_next h).1
  have fired : ∀ i, s.sched = .fire i :: ms → fireable .bridged i = true →
      t = { s with sched := ms } ∨ Fires i { s with sched := ms } t := by
    intro i hs hf
    rw [step_of_fireNamed hs rfl (hb ▸ hf)] at h
    exact (exec_next h).2
  refine ⟨fun b hs => ?arrive, fun hs => ?tick, fun p hs => ?submit, fun hs => ?test, fun hs => ?wifi,
    fun i hs hi => ?other⟩
  case arrive =>
    have hstep : step s = .next { s with sched := ms, rxd := s.rxd ++ [b] } := by
      rw [step_of_fetch_none hs rfl]
      exact guarded_fires hc trivial
    exact Host.Outcome.next.inj (h.symm.trans hstep)
  case tick =>
    obtain rfl | hf := fired _ hs rfl
    · exact ⟨s.txtimer, rfl⟩
    · cases hf; exact ⟨_, rfl⟩
  case submit =>
    obtain ht | hf := fired _ hs rfl
    · exact .inl ht
    · cases hf; exact .inr rfl
  case test =>
    obtain ht | hf := fired _ hs rfl
    · exact .inl ht
    · cases hf with
      | receiveForTest hq => exact .inr ⟨_, _, hq, rfl⟩
  case wifi =>
    obtain ht | hf := fired _ hs rfl
    · exact .inl ht
    · cases hf with
      | receiveForWifiCtrl hq => exact .inr ⟨_, _, hq, rfl⟩
  case other =>
    have hstep := step_of_fireNamed_waits hc hs rfl rfl (hb ▸ fireable_bridged_of_outside hi)
    exact Host.Outcome.next.inj (h.symm.trans hstep)

/-- Settles O57: a byte joins at the end by its own move, and what a move takes stands in front. -/
theorem waitingBytesAreTakenInOrder : Obligations.WaitingBytesAreTakenInOrder := by
  intro s t h
  obtain ⟨b, ms, hs, ht⟩ | ⟨taken, ht, hwho⟩ := step_rxd h
  · exact ⟨[], [b], ht.symm, fun _ => ⟨rfl, b, ms, rfl, hs⟩, fun hn => absurd rfl hn⟩
  · exact ⟨taken, [], by rw [List.append_nil, ht], fun hn => absurd rfl hn, hwho⟩

/-- Settles O1. -/
theorem resetStateTable : Obligations.ResetStateTable := by
  intro c len idx buf line moves n
  simp [State.resetTo]

/-- Settles O4: the three things the RX engine's turn can be. -/
theorem stepRunsByteAtRxd : Obligations.StepRunsByteAtRxd := by
  intro s ms hs
  refine ⟨fun b rest i hn hr hd => ?byte, fun hd => ?deliver, fun hc hn hr => ?none⟩
  case byte => exact step_of_fetch hs (rxTurn_of_byte hn hr hd)
  case deliver => exact step_of_fetch hs (rxTurn_of_deliver hd)
  case none =>
    rw [step_of_fetch_none hs (rxTurn_of_nil hn hr)]
    exact blocked_eq hc

/-- Settles O53: each turn is looked up by its latch, the dispatcher's also by the held packet's function byte. -/
theorem engineTurnsFollowTheirLatches : Obligations.EngineTurnsFollowTheirLatches := by
  intro s ms
  refine ⟨fun hs => ?rt, fun hb hs => ?bu, fun hb hs => ?bd, fun hc hcut hs => ?cut⟩
  case rt =>
    have turn : ∀ i, rtTurn { s with sched := ms } = i → step s = exec i { s with sched := ms } :=
      fun i hi => hi ▸ step_of_fetch hs rfl
    refine ⟨fun hn => turn _ (rtTurn_of_none hn), fun p hp => ⟨fun hT => ?_, fun hT hW => ?_, fun hT hW => ?_⟩⟩
    · exact turn _ ((rtTurn_of_some hp).trans (decodeRoute_test hT))
    · exact turn _ ((rtTurn_of_some hp).trans (decodeRoute_wifi hT hW))
    · exact turn _ ((rtTurn_of_some hp).trans (decodeRoute_unrouted ⟨hT, hW⟩))
  case bu =>
    have turn : ∀ i, buTurn { s with sched := ms } = i → step s = exec i { s with sched := ms } := fun i hi =>
      hi ▸ step_of_fireNamed hs rfl (by rw [fireable_buTurn, hb]; rfl)
    exact ⟨fun hn => turn _ (if_pos hn), fun hn => turn _ (if_neg hn)⟩
  case bd =>
    have turn : ∀ i, bdTurn { s with sched := ms } = i → step s = exec i { s with sched := ms } := fun i hi =>
      hi ▸ step_of_fireNamed hs rfl (by rw [fireable_bdTurn, hb]; rfl)
    exact ⟨fun hn => turn _ (if_pos hn), fun hn => turn _ (if_neg hn)⟩
  case cut =>
    obtain hs | hs := hs
    · exact step_of_fireNamed_waits hc hs rfl rfl (by rw [fireable_buTurn, hcut]; rfl)
    · exact step_of_fireNamed_waits hc hs rfl rfl (by rw [fireable_bdTurn, hcut]; rfl)

end Sys2Proof.Proofs

/-! PROOFS. The family of spec/20_memory.md: the function-code map and where it sends the held packet (R69, R76), the frame
under way on the line (R67), and the credits that data frames spend (R78). First when the dispatcher's operations fire and
when they are held; then who touches the inbound half besides the dispatcher; then the account of credits, transition by
transition and along a run. -/

namespace Sys2Proof.Machine

open Sys2Proof

/-- The two known function codes differ (R8). -/
theorem fnTest_ne_fnWifi {c : Config} (hc : c.Valid) : c.fnTest ≠ c.fnWifi := by
  obtain ⟨-, -, hne, -⟩ := hc
  exact hne

/-! ### The dispatcher's operations, firing and held -/

section Dispatcher

variable {s : State} {p : Packet} {code : Byte} {q : QueueId}

theorem routeHeld_fires (hc : s.cfg.Valid) (hp : s.rthold = some p) (hf : fnOf p = some code) (hr : s.hasRoom q) :
    routeHeld code q s = .next { s.enq q p with rthold := none } := by
  unfold routeHeld
  rw [hp]
  exact guarded_fires hc ⟨hf, hr⟩

theorem routeHeld_held (hc : s.cfg.Valid) (hn : ∀ p, s.rthold = some p → ¬ (fnOf p = some code ∧ s.hasRoom q)) :
    routeHeld code q s = .next s := by
  unfold routeHeld
  split
  · exact blocked_eq hc
  · rename_i p hp; exact guarded_held hc (hn p hp)

theorem dropHeld_fires (hc : s.cfg.Valid) (hp : s.rthold = some p) (hu : Unrouted s.cfg (fnOf p)) :
    dropHeld s = .next { s.logDrop p with rthold := none } := by
  unfold dropHeld
  rw [hp]
  exact guarded_fires hc hu

theorem dropHeld_held (hc : s.cfg.Valid) (hn : ∀ p, s.rthold = some p → ¬ Unrouted s.cfg (fnOf p)) :
    dropHeld s = .next s := by
  unfold dropHeld
  split
  · exact blocked_eq hc
  · rename_i p hp; exact guarded_held hc (hn p hp)

theorem execRouteUnrouted_fires (hc : s.cfg.Valid) (hp : s.rthold = some p) (hu : Unrouted s.cfg (fnOf p)) :
    execRouteUnrouted (fnOf p) s = .next { s.logDrop p with rthold := none } := by
  unfold execRouteUnrouted
  rw [if_pos (by rw [hp]; rfl)]
  exact dropHeld_fires hc hp hu

theorem execRouteUnrouted_held {f : Option Byte} (hc : s.cfg.Valid)
    (hn : ∀ p, s.rthold = some p → ¬ (fnOf p = f ∧ Unrouted s.cfg f)) : execRouteUnrouted f s = .next s := by
  unfold execRouteUnrouted
  split
  · rename_i hf
    refine dropHeld_held hc fun p hp hu => hn p hp ?_
    obtain rfl : fnOf p = f := by simpa [hp] using hf
    exact ⟨rfl, hu⟩
  · exact blocked_eq hc

/-- R191: one packet in hand at a time. -/
theorem execRtFetch_held (hc : s.cfg.Valid) (hp : s.rthold = some p) : execRtFetch s = .next s := by
  unfold execRtFetch
  split
  · exact blocked_eq hc
  · exact guarded_held hc (by rw [hp]; exact Option.some_ne_none p)

/-- A held packet that neither queue takes and that is not unroutable holds every row of the dispatcher (R200). -/
theorem exec_rtOwn_held {i : Instr} (hc : s.cfg.Valid) (hp : s.rthold = some p)
    (hT : ¬ (fnOf p = some s.cfg.fnTest ∧ s.hasRoom .fqTest)) (hW : ¬ (fnOf p = some s.cfg.fnWifi ∧ s.hasRoom .fqWifi))
    (hU : ¬ Unrouted s.cfg (fnOf p)) (hi : rtOwn i = true) : exec i s = .next s := by
  have only : ∀ {P : Packet → Prop}, P p → ∀ p', s.rthold = some p' → P p' := by
    intro P hP p' hp'
    cases hp.symm.trans hp'
    exact hP
  cases i with
  | rtFetch => exact execRtFetch_held hc hp
  | routeTest | rtRouteTest => exact routeHeld_held hc (only hT)
  | routeWifiCtrl | rtRouteWifi => exact routeHeld_held hc (only hW)
  | rtDrop => exact dropHeld_held hc (only hU)
  | routeUnrouted f => exact execRouteUnrouted_held hc (only fun ⟨hf, hu⟩ => hU (hf ▸ hu))
  | _ => cases hi

end Dispatcher

/-! ### What the others do to the dispatcher's latch and queues -/

/-- The dispatcher alone fills and empties `rthold` and takes from `RIQ`; it alone appends to the two function queues, and
only a queue's consumer takes from it (R27, R29, R43). -/
theorem Fires.inbound_of_not_rtOwn {i : Instr} {s t : State} (h : Fires i s t) (hi : rtOwn i = false) :
    t.rthold = s.rthold ∧ s.riq <+: t.riq ∧ (i ≠ .receiveForTest → t.fqTest = s.fqTest) ∧
      (i ≠ .receiveForWifiCtrl → t.fqWifi = s.fqWifi) := by
  cases h with
  | routeTest | routeWifiCtrl | routeUnrouted | rtFetch | rtRouteTest | rtRouteWifi | rtDrop => cases hi
  | postInbound | buPost => exact ⟨rfl, List.prefix_append _ _, fun _ => rfl, fun _ => rfl⟩
  | receiveForTest => exact ⟨rfl, List.prefix_rfl, fun hn => absurd rfl hn, fun _ => rfl⟩
  | receiveForWifiCtrl => exact ⟨rfl, List.prefix_rfl, fun _ => rfl, fun hn => absurd rfl hn⟩
  | _ => exact ⟨rfl, List.prefix_rfl, fun _ => rfl, fun _ => rfl⟩

/-! ### Accounts along a run -/

theorem sumAlong_cons {f : Instr → State → State → Nat} {i : Instr} {is : List Instr} {s t : State}
    (h : exec i s = .next t) : sumAlong f (i :: is) s = f i s t + sumAlong f is t := by
  simp only [sumAlong, h]

/-- Where each transition spends at most what it earns and what it takes from the stock, so does a whole run. -/
theorem sumAlong_account {ok : Instr → Prop} {spent earned : Instr → State → State → Nat} {stock : State → Nat}
    (hstep : ∀ i s t, ok i → exec i s = .next t → spent i s t + stock t ≤ stock s + earned i s t) :
    ∀ (is : List Instr) (s t : State), (∀ i ∈ is, ok i) → execAll is s = .next t →
      sumAlong spent is s + stock t ≤ stock s + sumAlong earned is s := by
  intro is
  induction is with
  | nil => intro s t _ h; cases h; exact (Nat.add_comm _ _).le
  | cons i is ih =>
    intro s t hok h
    obtain ⟨u, hx, h⟩ := andThen_next h
    have hone := hstep i s u (hok i List.mem_cons_self) hx
    have hrest := ih u t (fun j hj => hok j (List.mem_cons_of_mem i hj)) h
    rw [sumAlong_cons hx, sumAlong_cons hx]
    omega

/-! ### Credits -/

section Credits

variable {i : Instr} {s t : State}

theorem dataBegun_le_one : dataBegun s t ≤ 1 := by
  unfold dataBegun; split <;> omega

/-- A data frame begins only where the phase changes to TX_DATA_EMIT. -/
theorem dataBegun_eq_zero (h : t.txph = s.txph ∨ t.txph ≠ .dataEmit) : dataBegun s t = 0 :=
  if_neg fun ⟨hs, ht⟩ => h.elim (fun he => hs (he ▸ ht)) (fun hn => hn ht)

/-- The account of a transition that begins no data frame. -/
theorem credit_account_of_not_begun {n : Nat} (hp : t.txph = s.txph ∨ t.txph ≠ .dataEmit)
    (hn : credits t ≤ credits s + n) : dataBegun s t + credits t ≤ credits s + n := by
  rw [dataBegun_eq_zero hp, Nat.zero_add]
  exact hn

/-- The account of a transition that spends a credit. -/
theorem credit_account_of_spent {n : Nat} (hn : credits t + 1 ≤ credits s) :
    dataBegun s t + credits t ≤ credits s + n := by
  have hone : dataBegun s t ≤ 1 := dataBegun_le_one
  omega

/-- A wait takes credit away or leaves it, and never adds any (R142). -/
theorem credits_waited_le (m : SigSet) : credits (s.waited m) ≤ credits s := by
  have hpgs : (s.sig.pgs && !m.pgs).toNat ≤ s.sig.pgs.toNat := by
    cases s.sig.pgs with
    | false => exact Nat.le_refl _
    | true => exact Bool.toNat_le _
  simp only [credits, State.waited_sig, State.waited_txgo, Sig.clear_reported]
  omega

/-- A decoded sentinel makes `sig.PGS` 1 (R125): one credit at most. -/
theorem credits_raise_pgs_le : credits { s with sig := { s.sig with pgs := true } } ≤ credits s + 1 := by
  simp only [credits, Bool.toNat_true]
  omega

/-- R165 for one transition: a credit comes from a decoded sentinel, and a data frame spends one, from `sig.PGS` (R157) or
from `txgo` (R159), into which R156 has put it. -/
theorem Fires.credit_account (h : Fires i s t) (hr : ∀ x, i ≠ .sigRaise x) :
    dataBegun s t + credits t ≤ credits s + heardBy i s := by
  cases h with
  | sigRaise => exact absurd rfl (hr _)
  | sentinel hp | len0 hp =>
    exact credit_account_of_not_begun (.inl rfl) (by rw [heardBy, if_pos hp]; exact credits_raise_pgs_le)
  | rxLenSentinel hb hp =>
    refine credit_account_of_not_begun (.inl rfl) ?_
    rw [heardBy, if_pos ⟨hp, by rw [hb]; rfl⟩]
    exact credits_raise_pgs_le
  | txHoldWakeSend _ _ _ hpgs => exact credit_account_of_spent (by simp [credits, hpgs, Nat.add_comm])
  | txGrantEmitDoneGo _ _ _ hgo => exact credit_account_of_spent (by simp [credits, hgo])
  | txHoldWakeBoth _ _ hpgs => exact credit_account_of_not_begun (.inr nofun) (by simp [credits, hpgs]; omega)
  | txHoldWakeGrant => exact credit_account_of_not_begun (.inr nofun) (by simp [credits])
  | sigWait => exact credit_account_of_not_begun (.inl rfl) ((credits_waited_le _).trans (Nat.le_add_right _ _))
  | txDelayExpire | txSyncEmitDone | txSyncPollHit | txSyncPollMiss | txCheckEmpty | txCheckDeq | txIdleWakeGrant
  | txIdleWakeOutbound | txIdleEmitDone | txGrantEmitDoneBack | txDataEmitDone =>
    exact credit_account_of_not_begun (.inr nofun) (Nat.le_add_right _ _)
  | _ => exact credit_account_of_not_begun (.inl rfl) (Nat.le_add_right _ _)

theorem exec_credit_account (h : exec i s = .next t) (hr : ∀ x, i ≠ .sigRaise x) :
    dataBegun s t + credits t ≤ credits s + heardBy i s := by
  obtain ⟨-, rfl | hf⟩ := exec_next h
  · exact credit_account_of_not_begun (.inl rfl) (Nat.le_add_right _ _)
  · exact hf.credit_account hr

end Credits

end Sys2Proof.Machine

namespace Sys2Proof.Proofs

open Sys2Proof Sys2Proof.Machine

/-- Settles O44: the account of one transition, summed along the run; at reset no credit is in hand. -/
theorem oneDataFramePerCredit : Obligations.OneDataFramePerCredit := by
  intro is s t hok h
  have hsum : sumAlong (fun _ => dataBegun) is s + credits t ≤ credits s + sumAlong (fun i s _ => heardBy i s) is s :=
    sumAlong_account (ok := fun i => ∀ x, i ≠ .sigRaise x) (spent := fun _ => dataBegun)
      (earned := fun i s _ => heardBy i s) (fun _ _ _ hr hx => exec_credit_account hx hr) is s t hok h
  refine ⟨hsum, fun c len idx buf line moves n hs => ?_⟩
  have hnone : credits s = 0 := by rw [hs]; rfl
  omega

/-- Settles O32: the three cases of the function-code map (R69). -/
theorem routeRowsDecodeTheirEncoding : Obligations.RouteRowsDecodeTheirEncoding := by
  intro c hc
  have hcodes : c.fnTest ≠ c.fnWifi := fnTest_ne_fnWifi hc
  refine ⟨fun f => ?row, decodeRoute_test rfl, decodeRoute_wifi (fun he => ?wifi) rfl, fun f hw => ?unrouted⟩
  case row =>
    by_cases hT : f = some c.fnTest
    · rw [decodeRoute_test hT, hT]; exact ⟨rfl, rfl⟩
    · by_cases hW : f = some c.fnWifi
      · rw [decodeRoute_wifi hT hW, hW]; exact ⟨rfl, rfl⟩
      · rw [decodeRoute_unrouted ⟨hT, hW⟩]; exact ⟨decide_eq_true ⟨hT, hW⟩, rfl⟩
  case wifi => exact hcodes (Option.some.inj he).symm
  case unrouted => exact decodeRoute_unrouted (of_decide_eq_true hw)

/-- Settles O43: of the four things a transition can do to the line, two need `txout` empty. -/
theorem frameBeingWrittenIsNotInterrupted : Obligations.FrameBeingWrittenIsNotInterrupted := by
  intro s t i b rest ho hout h
  have hne : s.txout ≠ [] := by rw [hout]; exact List.cons_ne_nil b rest
  obtain ⟨-, rfl | hf⟩ := exec_next h
  · exact ⟨rfl, rfl, .inl ⟨rfl, rfl⟩⟩
  · cases hf.lineStep ho with
    | still _ hsame hbytes hkept =>
      obtain ⟨hph, hhold⟩ | hnil := hkept
      · exact ⟨hph, hhold, .inl ⟨hsame, hbytes⟩⟩
      · exact absurd hnil hne
    | write b' hi hcons hbytes hph hhold =>
      obtain ⟨rfl, rfl⟩ := List.cons.inj (hout.symm.trans hcons)
      exact ⟨hph, hhold, .inr ⟨hi, rfl, hbytes⟩⟩
    | loadSent _ hnil => exact absurd hnil hne
    | loadData _ _ hnil => exact absurd hnil hne

/-- Settles O49: the held packet's one row lacks room, so the dispatcher is held; nobody else touches its latch. -/
theorem headOfLineBlocking : Obligations.HeadOfLineBlocking := by
  intro s p hc hp hfull
  have hcodes : s.cfg.fnTest ≠ s.cfg.fnWifi := fnTest_ne_fnWifi hc
  have held : ∀ i, rtOwn i = true → exec i s = .next s := by
    intro i hi
    obtain ⟨hf, hn⟩ | ⟨hf, hn⟩ := hfull
    · exact exec_rtOwn_held hc hp (fun hg => hn hg.2)
        (fun hg => hcodes (Option.some.inj (hf.symm.trans hg.1))) (fun hu => hu.1 hf) hi
    · exact exec_rtOwn_held hc hp (fun hg => hcodes (Option.some.inj (hg.1.symm.trans hf)))
        (fun hg => hn hg.2) (fun hu => hu.2 hf) hi
  refine ⟨held, fun i t h => ?_⟩
  have hunmoved : t = s ∨ (rtOwn i = false ∧ Fires i s t) := by
    cases hi : rtOwn i with
    | true => exact .inl (Host.Outcome.next.inj (h.symm.trans (held i hi)))
    | false => exact (exec_next h).2.imp id fun hf => ⟨rfl, hf⟩
  obtain rfl | ⟨hi, hf⟩ := hunmoved
  · exact ⟨hp, List.prefix_rfl, fun _ _ => rfl, fun _ _ => rfl⟩
  · obtain ⟨hlatch, hriq, hT, hW⟩ := hf.inbound_of_not_rtOwn hi
    exact ⟨hlatch.trans hp, hriq, fun _ => hT, fun _ => hW⟩

/-- Settles O16: each row is one of the dispatcher's two operations, firing or held. -/
theorem routeClassEffects : Obligations.RouteClassEffects := by
  intro s hc
  refine ⟨fun p hp hf hr => ?test, fun hn => ?testHeld, fun p hp hf hr => ?wifi, fun hn => ?wifiHeld,
    fun p hp hT hW => ?drop, fun f hn => ?dropHeld⟩
  case test => exact routeHeld_fires hc hp hf hr
  case testHeld => exact routeHeld_held hc hn
  case wifi => exact routeHeld_fires hc hp hf hr
  case wifiHeld => exact routeHeld_held hc hn
  case drop => exact execRouteUnrouted_fires hc hp ⟨hT, hW⟩
  case dropHeld => exact execRouteUnrouted_held hc hn

end Sys2Proof.Proofs

/-! PROOFS. The family of spec/30_encoding.md: the decoder reads what the encoder writes, frame by frame (R90, R130) and
byte by byte (R100), and what the FRAME and BYTE rows then do. First the decoder on encoded frames and on one byte; then
the RX engine's effects as equations, and a whole data frame as its delivery (log 7). -/

namespace Sys2Proof

/-- A length byte that names at least one data byte is not the sentinel's. -/
theorem lenByte_ne_zero {b : Byte} (h : 1 ≤ b.toNat) : b ≠ 0x00#8 := by
  rintro rfl
  exact absurd h (by decide)

/-! ### The decoder on encoded frames -/

section Frames

variable {mtu : Nat} {p rest : List Byte}

theorem decodeFrame_sent : decodeFrame .hunt mtu (sent ++ rest) = .ok (.sentinel, rest) := rfl

theorem decodeNext_sent : decodeNext mtu (sent ++ rest) = some (.sentinel, rest) := by
  simp [sent, decodeNext]

/-- A header whose length byte is the length of `p`, with all of `p` behind it, passes every test of both decoders; each
then cuts the line after `p`. -/
theorem decode_dataHeader {n : Byte} (hn : n.toNat = p.length) (hpos : 1 ≤ p.length) (hmtu : p.length ≤ mtu) :
    decodeFrame .hunt mtu (startMarker :: n :: (p ++ rest)) = .ok (.dataFrame p, rest) ∧
      decodeNext mtu (startMarker :: n :: (p ++ rest)) = some (.data p, rest) := by
  have hzero : n ≠ 0x00#8 := lenByte_ne_zero (by omega)
  have hfits : ¬ mtu < n.toNat := by omega
  have hthere : ¬ (p ++ rest).length < n.toNat := by rw [List.length_append]; omega
  have htake : (p ++ rest).take n.toNat = p := by rw [hn]; exact List.take_left
  have hdrop : (p ++ rest).drop n.toNat = rest := by rw [hn]; exact List.drop_left
  constructor
  · simp only [decodeFrame, ne_eq, not_true_eq_false, if_false, if_neg hzero, if_neg hfits, if_neg hthere, htake, hdrop]
  · simp only [decodeNext, ne_eq, not_true_eq_false, if_false, if_neg hzero, if_neg hfits, if_neg hthere, htake, hdrop]

end Frames

/-! ### One byte in each phase (R100) -/

section Bytes

variable {mtu : Nat} {b : Byte}

theorem decodeByte_start : decodeByte .hunt mtu startMarker = .ok .start := rfl

theorem decodeByte_junk (h : b ≠ startMarker) : decodeByte .hunt mtu b = .ok (.junk b) :=
  congrArg Except.ok (if_neg h)

theorem decodeByte_len0 : decodeByte .len mtu 0x00#8 = .ok .len0 := rfl

theorem decodeByte_lenok (h1 : 1 ≤ b.toNat) (hm : b.toNat ≤ mtu) : decodeByte .len mtu b = .ok (.lenok b) := by
  exact congrArg Except.ok ((if_neg (lenByte_ne_zero h1)).trans (if_pos hm))

theorem decodeByte_lenover (hm : mtu < b.toNat) : decodeByte .len mtu b = .ok (.lenover b) := by
  have hzero : b ≠ 0x00#8 := lenByte_ne_zero (by omega)
  exact congrArg Except.ok ((if_neg hzero).trans (if_neg (Nat.not_le.2 hm)))

/-- The length byte is zero, or names a length up to `MTU`, or names a greater one. -/
theorem lenByte_cases (mtu : Nat) (b : Byte) : b = 0x00#8 ∨ (1 ≤ b.toNat ∧ b.toNat ≤ mtu) ∨ mtu < b.toNat := by
  by_cases hzero : b = 0x00#8
  · exact .inl hzero
  · have hpos : b.toNat ≠ 0 := fun h => hzero (BitVec.eq_of_toNat_eq h)
    omega

end Bytes

end Sys2Proof

namespace Sys2Proof.Machine

open Sys2Proof

/-! ### A whole frame, taken at a frame boundary -/

section WholeFrame

variable {s : State} {p : Packet}

theorem takeStart_fires (hc : s.cfg.Valid) (hh : s.rxph = .hunt) : takeStart startMarker s = .next { s with rxph := .len } :=
  guarded_fires hc ⟨hh, rfl⟩

theorem takeData_fires {b : Byte} (hc : s.cfg.Valid) (hd : s.rxph = .data) (hi : s.rxidx < s.rxbuf.length) :
    takeData b s = .next { s with
      rxbuf := s.rxbuf.set s.rxidx b, rxidx := s.rxidx + 1
      rxph := if s.rxidx + 1 = s.rxlen.toNat then .deliver else .data } :=
  (guarded_fires hc hd).trans (if_pos hi)

theorem deliver_fires (hc : s.cfg.Valid) (hd : s.rxph = .deliver) (hr : s.hasRoom .tiq) (hpos : 1 ≤ s.rxlen.toNat)
    (hbuf : s.rxlen.toNat ≤ s.rxbuf.length) :
    deliver s = .next { (s.enq .tiq (s.rxbuf.take s.rxlen.toNat)).raise .owe with rxph := .hunt } :=
  (guarded_fires hc ⟨hd, hr⟩).trans (if_pos ⟨hpos, hbuf⟩)

/-- Data bytes for which `rxbuf` has room are all taken (R128): none finds `rxidx` outside it. -/
theorem exists_takeAll_next (p : List Byte) : ∀ {s : State}, s.cfg.Valid → s.rxidx + p.length ≤ s.rxbuf.length →
    ∃ t, takeAll p s = .next t := by
  induction p with
  | nil => exact fun _ _ => ⟨_, rfl⟩
  | cons b bs ih =>
    intro s hc hroom
    rw [List.length_cons] at hroom
    by_cases hd : s.rxph = .data
    · rw [takeAll, takeData_fires hc hd (by omega)]
      exact ih hc (by simp only [List.length_set]; omega)
    · have hheld : takeData b s = .next s := guarded_held hc hd
      rw [takeAll, hheld]
      exact ih hc (by omega)

/-- R124, R126 and R128 in succession: the packet stands at the front of `rxbuf`, and what is left of the frame is its
delivery. -/
theorem execDataFrame_eq_deliver (hc : s.cfg.Valid) (hb : s.rxbuf.length = s.cfg.mtu) (hh : s.rxph = .hunt)
    (hp : IsPacket s.cfg p) :
    execDataFrame p s = deliver { s with
      rxph := .deliver, rxlen := BitVec.ofNat 8 p.length, rxidx := p.length, rxbuf := p ++ s.rxbuf.drop p.length } := by
  obtain ⟨hpos, hmtu⟩ := hp
  have hlen : (BitVec.ofNat 8 p.length).toNat = p.length := toNat_ofNat_length hc ⟨hpos, hmtu⟩
  have hlenok : takeLenOk (BitVec.ofNat 8 p.length) { s with rxph := .len } =
      .next { s with rxlen := BitVec.ofNat 8 p.length, rxidx := 0, rxph := .data } :=
    guarded_fires hc ⟨rfl, by rw [hlen]; exact ⟨hpos, hmtu⟩⟩
  have hdata : takeAll p { s with rxlen := BitVec.ofNat 8 p.length, rxidx := 0, rxph := .data } = .next { s with
      rxph := .deliver, rxlen := BitVec.ofNat 8 p.length, rxidx := p.length, rxbuf := p ++ s.rxbuf.drop p.length } := by
    obtain ⟨t, ht⟩ := exists_takeAll_next p
      (s := { s with rxlen := BitVec.ofNat 8 p.length, rxidx := 0, rxph := .data }) hc (by simp only [hb]; omega)
    obtain ⟨-, rfl⟩ := takeAll_next p (List.length_pos_iff.1 hpos) rfl ((Nat.zero_add _).trans hlen.symm) ht
    simpa using ht
  rw [execDataFrame, guarded_fires hc ⟨hh, hpos, hmtu⟩, takeStart_fires hc hh, andThen, hlenok, andThen, hdata, andThen]

end WholeFrame

/-! ### The whole-frame move -/

theorem fetch_frame_of_ok {s : State} {i : Instr} {rest : List Byte}
    (h : decodeFrame s.rxph s.cfg.mtu s.rxd = .ok (i, rest)) : fetch .frame s = some (i, { s with rxd := rest }) := by
  rw [fetch, h]; rfl

theorem fetch_frame_of_error {s : State} {e : Reject} (h : decodeFrame s.rxph s.cfg.mtu s.rxd = .error e) :
    fetch .frame s = none := by
  rw [fetch, h]; rfl

end Sys2Proof.Machine

namespace Sys2Proof.Proofs

open Sys2Proof Sys2Proof.Machine

/-- Settles O30: a sentinel's length byte is zero, and a data frame's is the length of the packet behind it. -/
theorem frameRowsDecodeTheirEncoding : Obligations.FrameRowsDecodeTheirEncoding := by
  intro c i bs rest hc hw he
  refine ⟨fun hi => ?sentinel, fun p hi => ?dataFrame⟩
  case sentinel =>
    subst hi
    cases he
    exact ⟨decodeFrame_sent, decodeNext_sent⟩
  case dataFrame =>
    subst hi
    cases he
    have hp : IsPacket c p := of_decide_eq_true hw
    have hlen : (BitVec.ofNat 8 p.length).toNat = p.length := toNat_ofNat_length (s := State.resetWith c) hc hp
    exact decode_dataHeader hlen hp.1 hp.2

/-- Settles O11: the frame comes down to its delivery, which fires or is held as `TIQ` has room or not. -/
theorem dataFrameEffect : Obligations.DataFrameEffect := by
  intro s p hc hb
  refine ⟨fun hh hp hr => ?delivered, fun hh hp hr => ?waits, fun hn => ?held⟩
  case delivered =>
    have hlen : (BitVec.ofNat 8 p.length).toNat = p.length := toNat_ofNat_length hc hp
    have hfront : (p ++ s.rxbuf.drop p.length).take (BitVec.ofNat 8 p.length).toNat = p := by
      rw [hlen]; exact List.take_left
    have hbuf : p.length ≤ (p ++ s.rxbuf.drop p.length).length := by rw [List.length_append]; exact Nat.le_add_right _ _
    refine Eq.trans (execDataFrame_eq_deliver hc hb hh hp) ?_
    refine Eq.trans (deliver_fires hc rfl hr (hp.1.trans_eq hlen.symm) (hlen.trans_le hbuf)) ?_
    simp only [hfront, ← hh]
    rfl
  case waits => exact (execDataFrame_eq_deliver hc hb hh hp).trans (guarded_held hc fun hg => hr hg.2)
  case held => exact guarded_held hc hn

/-- Settles O31: the rows of each phase, one by one, and the classes of a byte in each phase. -/
theorem byteRowsDecodeTheirEncoding : Obligations.ByteRowsDecodeTheirEncoding := by
  intro c
  refine ⟨fun i ph bs hw hph he => ?encoded, fun ph b i hd => ?decoded⟩
  case encoded =>
    cases i with
    | start => cases hph; cases he; exact ⟨_, rfl, decodeByte_start⟩
    | junk b => cases hph; cases he; exact ⟨_, rfl, decodeByte_junk (of_decide_eq_true hw)⟩
    | len0 => cases hph; cases he; exact ⟨_, rfl, decodeByte_len0⟩
    | lenok b =>
      cases hph; cases he
      obtain ⟨hpos, hmtu⟩ := of_decide_eq_true hw
      exact ⟨_, rfl, decodeByte_lenok hpos hmtu⟩
    | lenover b => cases hph; cases he; exact ⟨_, rfl, decodeByte_lenover (of_decide_eq_true hw)⟩
    | data b => cases hph; cases he; exact ⟨_, rfl, rfl⟩
    | _ => cases hph
  case decoded =>
    cases ph with
    | hunt =>
      by_cases hs : b = startMarker
      · subst hs; cases hd; exact ⟨rfl, rfl, rfl⟩
      · cases hd.symm.trans (decodeByte_junk hs); exact ⟨decide_eq_true hs, rfl, rfl⟩
    | len =>
      obtain rfl | ⟨hpos, hmtu⟩ | hover := lenByte_cases c.mtu b
      · cases hd; exact ⟨rfl, rfl, rfl⟩
      · cases hd.symm.trans (decodeByte_lenok hpos hmtu); exact ⟨decide_eq_true ⟨hpos, hmtu⟩, rfl, rfl⟩
      · cases hd.symm.trans (decodeByte_lenover hover); exact ⟨decide_eq_true hover, rfl, rfl⟩
    | data => cases hd; exact ⟨rfl, rfl, rfl⟩
    | deliver => cases hd

/-- Settles O5: the move fetches what the decoder reads from the line, or nothing. -/
theorem stepRunsFrameOnLine : Obligations.StepRunsFrameOnLine := by
  intro s ms hs
  refine ⟨fun i rest hd => ?frame, fun e hc hd => ?noFrame⟩
  case frame => exact step_of_fetch hs (fetch_frame_of_ok hd)
  case noFrame =>
    rw [step_of_fetch_none hs (fetch_frame_of_error hd)]
    exact blocked_eq hc

/-- Settles O7: the frame words are encodings with their data laid out as zeros; the others are single bytes. -/
theorem tableWordsDecode : Obligations.TableWordsDecode := by
  refine ⟨by decide, by decide, by decide, by decide, ?junk, ?lenok, ?lenover, rfl⟩
  case junk => exact decodeByte_junk (by decide)
  case lenok => exact decodeByte_lenok (by decide) (by decide)
  case lenover => exact decodeByte_lenover (by decide)

/-- Settles O10: R124 and R125 in succession, both of which fire; the phase is back at RX_HUNT. -/
theorem sentinelFrameEffect : Obligations.SentinelFrameEffect := by
  intro s hc
  refine ⟨fun hh => ?fires, fun hn => guarded_held hc hn⟩
  have hlen0 : takeLen0 0x00#8 { s with rxph := .len } = .next { s.raise .pgs with rxph := .hunt } :=
    guarded_fires hc ⟨rfl, rfl⟩
  rw [exec, execSentinel, guarded_fires hc hh, takeStart_fires hc hh, andThen, hlen0, ← hh]
  rfl

/-- Settles O12: the class map is R100's, and each class is one guarded transition, firing or held. -/
theorem byteClassEffects : Obligations.ByteClassEffects := by
  intro s b hc
  refine ⟨rfl, rfl, rfl, rfl, fun hg => ?junk, fun hn => ?junkHeld, fun hh => ?start, fun hn => ?startHeld,
    fun hl => ?len0, fun hn => ?len0Held, fun hg => ?lenok, fun hn => ?lenokHeld, fun hg => ?lenover,
    fun hn => ?lenoverHeld, fun ⟨hd, hi⟩ => ?data, fun hn => ?dataHeld⟩
  case junk => exact guarded_fires hc hg
  case junkHeld => exact guarded_held hc hn
  case start => exact takeStart_fires hc hh
  case startHeld => exact guarded_held hc fun hg => hn hg.1
  case len0 => exact guarded_fires hc ⟨hl, rfl⟩
  case len0Held => exact guarded_held hc fun hg => hn hg.1
  case lenok => exact guarded_fires hc hg
  case lenokHeld => exact guarded_held hc hn
  case lenover => exact guarded_fires hc hg
  case lenoverHeld => exact guarded_held hc hn
  case data => exact takeData_fires hc hd hi
  case dataHeld => exact guarded_held hc hn

/-- Settles O15: both route bytes are read where the image holds two bytes (R99); no code is an absent byte. -/
theorem functionByteOfImage : Obligations.FunctionByteOfImage := by
  refine ⟨fun d f rest => ?both, fun c p hshort => ?short⟩
  case both =>
    have hlong : routeHdrLen ≤ (d :: f :: rest).length := Nat.le_add_left 2 rest.length
    exact ⟨if_pos hlong, if_pos hlong⟩
  case short =>
    have hfn : fnOf p = none := if_neg (Nat.not_le.2 hshort)
    have hdst : dstOf p = none := if_neg (Nat.not_le.2 hshort)
    refine ⟨hfn, hdst, ?_⟩
    rw [hfn]
    exact decodeRoute_unrouted ⟨nofun, nofun⟩

end Sys2Proof.Proofs

/-! PROOFS. The family of spec/40_frame_codec.md: `decode_next` discards leading bytes and stops at the frame behind them
(R122, R132), and the RX engine, fed by turns, discards the same bytes and stops with the same frame (R129). -/

namespace Sys2Proof

/-! ### Where the decoder stops -/

/-- Leading bytes that `decode_next` discards (R122): bytes that are not the start marker, and headers above `MTU`. -/
inductive Discarded (mtu : Nat) : List Byte → Prop where
  | nil : Discarded mtu []
  | junk {b : Byte} {g : List Byte} : b ≠ startMarker → Discarded mtu g → Discarded mtu (b :: g)
  | overlength {n : Byte} {g : List Byte} : mtu < n.toNat → Discarded mtu g → Discarded mtu (startMarker :: n :: g)

/-- The bytes at which the discarding ends, and what `decode_next` answers on them: nothing, a lone start marker, a
sentinel, a data frame whose bytes are not all there, or a whole data frame. -/
inductive StopsWith (mtu : Nat) : List Byte → Option (Frame × List Byte) → Prop where
  | empty : StopsWith mtu [] none
  | marker : StopsWith mtu [startMarker] none
  | sentinel (rest : List Byte) : StopsWith mtu (sent ++ rest) (some (.sentinel, rest))
  | short {n : Byte} {p : List Byte} : n.toNat ≤ mtu → p.length < n.toNat → StopsWith mtu (startMarker :: n :: p) none
  | data {n : Byte} {p : Packet} (rest : List Byte) : 1 ≤ p.length → n.toNat ≤ mtu → n.toNat = p.length →
      StopsWith mtu (startMarker :: n :: (p ++ rest)) (some (.data p, rest))

section Decoder

variable {mtu : Nat} {g tail : List Byte} {r : Option (Frame × List Byte)}

theorem decodeNext_junk {b : Byte} (h : b ≠ startMarker) : decodeNext mtu (b :: tail) = decodeNext mtu tail := by
  cases tail with
  | nil => rfl
  | cons n rest => exact if_pos h

theorem decodeDiscards_junk {b : Byte} (h : b ≠ startMarker) :
    decodeDiscards mtu (b :: tail) = .framingError b :: decodeDiscards mtu tail := by
  cases tail with
  | nil => exact if_pos h
  | cons n rest => exact if_pos h

theorem decodeNext_over {n : Byte} (h : mtu < n.toNat) :
    decodeNext mtu (startMarker :: n :: tail) = decodeNext mtu tail := by
  have hzero : n ≠ 0x00#8 := lenByte_ne_zero (by omega)
  simp only [decodeNext, ne_eq, not_true_eq_false, if_false, if_neg hzero, if_pos h]

theorem decodeDiscards_over {n : Byte} (h : mtu < n.toNat) :
    decodeDiscards mtu (startMarker :: n :: tail) = .overlength n :: decodeDiscards mtu tail := by
  have hzero : n ≠ 0x00#8 := lenByte_ne_zero (by omega)
  simp only [decodeDiscards, ne_eq, not_true_eq_false, if_false, if_neg hzero, if_pos h]

theorem decodeDiscards_fits {n : Byte} (h : n.toNat ≤ mtu) : decodeDiscards mtu (startMarker :: n :: tail) = [] := by
  simp only [decodeDiscards, ne_eq, not_true_eq_false, if_false, if_neg (Nat.not_lt.2 h), ite_self]

theorem Discarded.decodeNext_append (h : Discarded mtu g) : decodeNext mtu (g ++ tail) = decodeNext mtu tail := by
  induction h with
  | nil => rfl
  | junk hb _ ih => exact (decodeNext_junk hb).trans ih
  | overlength hn _ ih => exact (decodeNext_over hn).trans ih

theorem Discarded.decodeDiscards_append (h : Discarded mtu g) :
    decodeDiscards mtu (g ++ tail) = decodeDiscards mtu g ++ decodeDiscards mtu tail := by
  induction h with
  | nil => rfl
  | junk hb _ ih => rw [List.cons_append, decodeDiscards_junk hb, decodeDiscards_junk hb, ih, List.cons_append]
  | overlength hn _ ih =>
    rw [List.cons_append, List.cons_append, decodeDiscards_over hn, decodeDiscards_over hn, ih, List.cons_append]

theorem discarded_of_no_marker (h : ∀ b ∈ g, b ≠ startMarker) : Discarded mtu g := by
  induction g with
  | nil => exact .nil
  | cons b g ih => exact .junk (h b List.mem_cons_self) (ih fun x hx => h x (List.mem_cons_of_mem b hx))

theorem StopsWith.decodeNext_eq (h : StopsWith mtu tail r) : decodeNext mtu tail = r := by
  cases h with
  | empty => rfl
  | marker => rfl
  | sentinel rest => exact decodeNext_sent
  | short hmtu hp =>
    have hzero := lenByte_ne_zero (Nat.one_le_of_lt hp)
    simp only [decodeNext, ne_eq, not_true_eq_false, if_false, if_neg hzero, if_neg (Nat.not_lt.2 hmtu), if_pos hp]
  | data rest hpos hmtu hn => exact (decode_dataHeader hn hpos (hn ▸ hmtu)).2

/-- Where the decoder stops it discards nothing more. -/
theorem StopsWith.decodeDiscards_eq (h : StopsWith mtu tail r) : decodeDiscards mtu tail = [] := by
  cases h with
  | empty => rfl
  | marker => rfl
  | sentinel rest => exact decodeDiscards_fits (Nat.zero_le mtu)
  | short hmtu _ => exact decodeDiscards_fits hmtu
  | data rest _ hmtu _ => exact decodeDiscards_fits hmtu

/-- A header that fits stops the decoder, whether its data bytes are all there or not. -/
theorem exists_stopsWith_of_header {n : Byte} (hpos : 1 ≤ n.toNat) (hmtu : n.toNat ≤ mtu) (rest : List Byte) :
    ∃ r, StopsWith mtu (startMarker :: n :: rest) r := by
  by_cases hshort : rest.length < n.toNat
  · exact ⟨none, .short hmtu hshort⟩
  · have hlen : n.toNat = (rest.take n.toNat).length := by rw [List.length_take]; omega
    have hdata := StopsWith.data (mtu := mtu) (rest.drop n.toNat) (hlen ▸ hpos) hmtu hlen
    rw [List.take_append_drop] at hdata
    exact ⟨_, hdata⟩

/-- Every byte string is what the decoder discards, and then the bytes at which it stops. -/
theorem exists_discarded_append (mtu : Nat) :
    ∀ bs : List Byte, ∃ g tail r, bs = g ++ tail ∧ Discarded mtu g ∧ StopsWith mtu tail r
  | [] => ⟨[], [], none, rfl, .nil, .empty⟩
  | b :: bs => by
    by_cases hb : b = startMarker
    · subst hb
      cases bs with
      | nil => exact ⟨[], [startMarker], none, rfl, .nil, .marker⟩
      | cons n rest =>
        obtain rfl | ⟨hpos, hmtu⟩ | hover := lenByte_cases mtu n
        · exact ⟨[], _, _, rfl, .nil, .sentinel rest⟩
        · obtain ⟨r, hr⟩ := exists_stopsWith_of_header hpos hmtu rest
          exact ⟨[], _, r, rfl, .nil, hr⟩
        · obtain ⟨g, tail, r, rfl, hg, hr⟩ := exists_discarded_append mtu rest
          exact ⟨startMarker :: n :: g, tail, r, rfl, .overlength hover hg, hr⟩
    · obtain ⟨g, tail, r, rfl, hg, hr⟩ := exists_discarded_append mtu bs
      exact ⟨b :: g, tail, r, rfl, .junk hb hg, hr⟩
  termination_by bs => bs.length

/-- What `decode_next` answers, and its silent events, by the bytes it discards and the bytes at which it stops. -/
theorem decodeNext_split (mtu : Nat) (bs : List Byte) : ∃ g tail, bs = g ++ tail ∧ Discarded mtu g ∧
    StopsWith mtu tail (decodeNext mtu bs) ∧ decodeDiscards mtu bs = decodeDiscards mtu g := by
  obtain ⟨g, tail, r, rfl, hg, hr⟩ := exists_discarded_append mtu bs
  refine ⟨g, tail, rfl, hg, ?_, ?_⟩
  · rwa [hg.decodeNext_append, hr.decodeNext_eq]
  · rw [hg.decodeDiscards_append, hr.decodeDiscards_eq, List.append_nil]

end Decoder

/-- The framing round trip of R130 for a data frame. -/
theorem decodeNext_frameOf {c : Config} {p t : List Byte} (hc : c.Valid) (hp : IsPacket c p) :
    decodeNext c.mtu (frameOf p ++ t) = some (.data p, t) := by
  have hlen : (BitVec.ofNat 8 p.length).toNat = p.length :=
    Machine.toNat_ofNat_length (s := Machine.State.resetWith c) hc hp
  exact (decode_dataHeader hlen hp.1 hp.2).2

end Sys2Proof

namespace Sys2Proof.Machine

open Sys2Proof

/-! ### The steps that take a byte from RXD -/

section FromLine

variable {s : State} {f : Byte → State → Result}

theorem fromLine_takes {P : Byte → Prop} [DecidablePred P] {b : Byte} {rest : List Byte} (hr : s.rxd = b :: rest)
    (hb : P b) : fromLine s (fun x => decide (P x)) f = f b { s with rxd := rest } := by
  unfold fromLine
  rw [hr]
  exact if_pos (decide_eq_true hb)

theorem fromLine_held {P : Byte → Prop} [DecidablePred P] (hc : s.cfg.Valid)
    (hn : ∀ b rest, s.rxd = b :: rest → ¬ P b) : fromLine s (fun x => decide (P x)) f = .next s := by
  unfold fromLine
  split
  · exact blocked_eq hc
  · rename_i b rest hr
    exact (if_neg fun h => hn b rest hr (of_decide_eq_true h)).trans (blocked_eq hc)

end FromLine

/-! ### The RX engine fed by turns -/

/-- The state with the bytes `bs` waiting at RXD and `n` turns of the RX engine scheduled. -/
def State.fed (s : State) (bs : List Byte) (n : Nat) : State :=
  { s with rxd := bs, sched := List.replicate n (.agent .rx) }

/-- `n` turns of the RX engine on the bytes `bs`. -/
def rxTurns (n : Nat) (bs : List Byte) (s : State) : Result := runSteps n (s.fed bs n)

section Turns

variable {s t : State} {k : Nat} {b : Byte} {bs : List Byte}

theorem runSteps_eq_rxTurns {n : Nat} (hs : s.sched = List.replicate n (.agent .rx)) :
    runSteps n s = rxTurns n s.rxd s := by
  rw [rxTurns, State.fed, ← hs]

theorem rxTurns_zero : rxTurns 0 bs s = .next { s with rxd := bs, sched := [] } := rfl

/-- One turn runs the row of the first byte (R100); the rest of the bytes and turns are the next state's. -/
theorem rxTurns_cons {i : Instr} (hn : s.rxph ≠ .deliver) (hd : decodeByte s.rxph s.cfg.mtu b = .ok i)
    (hx : exec i (s.fed bs k) = .next (t.fed bs k)) : rxTurns (k + 1) (b :: bs) s = rxTurns k bs t := by
  have hstep : step (s.fed (b :: bs) (k + 1)) = .next (t.fed bs k) :=
    (step_of_fetch (s := s.fed (b :: bs) (k + 1)) rfl (rxTurn_of_byte (s := s.fed (b :: bs) k) hn rfl hd)).trans hx
  rw [rxTurns, runSteps, hstep]
  rfl

theorem rxTurns_junk (hc : s.cfg.Valid) (hh : s.rxph = .hunt) (hb : b ≠ startMarker) :
    rxTurns (k + 1) (b :: bs) s = rxTurns k bs (s.emit (.silent (.framingError b))) := by
  refine rxTurns_cons (i := .junk b) ?_ ?_ (guarded_fires hc ⟨hh, hb⟩)
  · rw [hh]; exact nofun
  · rw [hh]; exact decodeByte_junk hb

theorem rxTurns_start (hc : s.cfg.Valid) (hh : s.rxph = .hunt) :
    rxTurns (k + 1) (startMarker :: bs) s = rxTurns k bs { s with rxph := .len } := by
  refine rxTurns_cons (i := .start) ?_ ?_ (takeStart_fires hc hh)
  · rw [hh]; exact nofun
  · rw [hh]; exact decodeByte_start

/-- R124 and R125: a sentinel's two bytes. -/
theorem rxTurns_sent (hc : s.cfg.Valid) (hh : s.rxph = .hunt) :
    rxTurns (k + 2) (sent ++ bs) s = rxTurns k bs (s.raise .pgs) := by
  have hzero : rxTurns (k + 1) (0x00#8 :: bs) { s with rxph := .len } =
      rxTurns k bs { s.raise .pgs with rxph := .hunt } :=
    rxTurns_cons (i := .len0) nofun rfl (guarded_fires hc ⟨rfl, rfl⟩)
  rw [← hh] at hzero
  exact (rxTurns_start hc hh).trans hzero

/-- R124 and R126: the header of a data frame. -/
theorem rxTurns_header {n : Byte} (hc : s.cfg.Valid) (hh : s.rxph = .hunt) (hpos : 1 ≤ n.toNat)
    (hmtu : n.toNat ≤ s.cfg.mtu) :
    rxTurns (k + 2) (startMarker :: n :: bs) s = rxTurns k bs { s with rxlen := n, rxidx := 0, rxph := .data } :=
  (rxTurns_start hc hh).trans
    (rxTurns_cons (i := .lenok n) nofun (decodeByte_lenok hpos hmtu) (guarded_fires hc ⟨rfl, hpos, hmtu⟩))

/-- R124 and R127: a header above `MTU` is discarded. -/
theorem rxTurns_over {n : Byte} (hc : s.cfg.Valid) (hh : s.rxph = .hunt) (hn : s.cfg.mtu < n.toNat) :
    rxTurns (k + 2) (startMarker :: n :: bs) s = rxTurns k bs (s.emit (.silent (.overlength n))) := by
  have hover : rxTurns (k + 1) (n :: bs) { s with rxph := .len } =
      rxTurns k bs { s.emit (.silent (.overlength n)) with rxph := .hunt } :=
    rxTurns_cons (i := .lenover n) nofun (decodeByte_lenover hn) (guarded_fires hc ⟨rfl, hn⟩)
  rw [← hh] at hover
  exact (rxTurns_start hc hh).trans hover

/-- The engine takes the bytes that `decode_next` discards, and reports what `decode_next` reports. -/
theorem rxTurns_discarded {g : List Byte} (hg : Discarded s.cfg.mtu g) (hc : s.cfg.Valid) (hh : s.rxph = .hunt) :
    rxTurns (k + g.length) (g ++ bs) s = rxTurns k bs (s.emitAll ((decodeDiscards s.cfg.mtu g).map .silent)) := by
  generalize hm : s.cfg.mtu = mtu at hg ⊢
  induction hg generalizing s with
  | nil => simp [decodeDiscards, State.emitAll]
  | junk hb _ ih =>
    refine (rxTurns_junk hc hh hb).trans ((ih (s := s.emit _) hc hh hm).trans ?_)
    simp [decodeDiscards_junk hb, State.emitAll, State.emit]
  | overlength hn _ ih =>
    refine (rxTurns_over hc hh (hm ▸ hn)).trans ((ih (s := s.emit _) hc hh hm).trans ?_)
    simp [decodeDiscards_over hn, State.emitAll, State.emit]

/-! ### The data bytes of a frame -/

theorem rxTurns_dataByte (hc : s.cfg.Valid) (hd : s.rxph = .data) (hi : s.rxidx < s.rxbuf.length) :
    rxTurns (k + 1) (b :: bs) s = rxTurns k bs { s with
      rxbuf := s.rxbuf.set s.rxidx b, rxidx := s.rxidx + 1
      rxph := if s.rxidx + 1 = s.rxlen.toNat then .deliver else .data } := by
  refine rxTurns_cons (i := .data b) ?_ ?_ (takeData_fires hc hd hi)
  · rw [hd]; exact nofun
  · rw [hd]; rfl

/-- The turns on data bytes of one frame are R128 for each byte, in succession. -/
theorem rxTurns_data (p : List Byte) : ∀ {s : State}, (p ≠ [] → s.rxph = .data) →
    s.rxidx + p.length ≤ s.rxlen.toNat → takeAll p s = .next t → rxTurns (k + p.length) (p ++ bs) s = rxTurns k bs t := by
  induction p with
  | nil =>
    intro s _ _ h
    cases h
    rfl
  | cons b p ih =>
    intro s hd hlen h
    rw [List.length_cons] at hlen
    have hd : s.rxph = .data := hd (List.cons_ne_nil b p)
    obtain ⟨u, hu, h⟩ := andThen_next h
    obtain ⟨hc, ⟨-, hi, rfl⟩ | ⟨hn, -⟩⟩ := takeData_next hu
    · refine (rxTurns_dataByte hc hd hi).trans (ih (fun hp => ?_) ?_ h)
      · have hpos := List.length_pos_iff.2 hp
        exact if_neg (by omega)
      · dsimp only
        omega
    · exact absurd hd hn

/-- All the data bytes of a frame stand at the front of `rxbuf`, and the frame waits for its delivery. -/
theorem takeAll_complete {p : Packet} (hc : s.cfg.Valid) (hd : s.rxph = .data) (hz : s.rxidx = 0) (hpos : 1 ≤ p.length)
    (hlen : s.rxlen.toNat = p.length) (hbuf : p.length ≤ s.rxbuf.length) :
    takeAll p s = .next { s with rxph := .deliver, rxidx := p.length, rxbuf := p ++ s.rxbuf.drop p.length } := by
  obtain ⟨t, ht⟩ := exists_takeAll_next p hc (by omega)
  obtain ⟨-, rfl⟩ := takeAll_next p (List.length_pos_iff.1 hpos) hd (by omega) ht
  simpa [hz] using ht

/-- Fewer data bytes than the frame's length leave the engine in RX_DATA. -/
theorem takeAll_short (p : List Byte) : ∀ {s : State}, s.cfg.Valid → s.rxph = .data →
    s.rxidx + p.length < s.rxlen.toNat → s.rxlen.toNat ≤ s.rxbuf.length →
    ∃ idx buf, takeAll p s = .next { s with rxph := .data, rxidx := idx, rxbuf := buf } := by
  induction p with
  | nil => exact fun {s} _ hd _ _ => ⟨s.rxidx, s.rxbuf, by rw [← hd]; rfl⟩
  | cons b p ih =>
    intro s hc hd hlen hbuf
    rw [List.length_cons] at hlen
    have hmore : s.rxidx + 1 ≠ s.rxlen.toNat := by omega
    rw [takeAll, takeData_fires hc hd (by omega), if_neg hmore]
    exact ih hc rfl (by dsimp only; omega) (by simpa using hbuf)

end Turns

end Sys2Proof.Machine

namespace Sys2Proof.Proofs

open Sys2Proof Sys2Proof.Machine

/-- Settles O34: the engine takes the discarded bytes, then the frame at which the decoder stops. -/
theorem rxEngineCarriesOutDecodeNext : Obligations.RxEngineCarriesOutDecodeNext := by
  intro s f rest hc hh hb hf hs
  rw [runSteps_eq_rxTurns hs]
  obtain ⟨g, tail, hbs, hg, hstop, hev⟩ := decodeNext_split s.cfg.mtu s.rxd
  rw [hf] at hstop
  rw [hev, hbs]
  cases hstop with
  | sentinel =>
    have hn : (g ++ (sent ++ rest)).length - rest.length = 0 + 2 + g.length := by
      simp only [sent, List.length_append, List.length_cons, List.length_nil]; omega
    rw [hn, rxTurns_discarded hg hc hh, rxTurns_sent (s := s.emitAll _) hc hh, rxTurns_zero]
    exact ⟨_, rfl, rfl, rfl, rfl, rfl, rfl, fun _ => ⟨hh, rfl, rfl, rfl, rfl⟩, nofun⟩
  | @data n p _ hpos hmtu hlen =>
    have hn : (g ++ startMarker :: n :: (p ++ rest)).length - rest.length = 0 + p.length + 2 + g.length := by
      simp only [List.length_append, List.length_cons]; omega
    have hdata := takeAll_complete (p := p)
      (s := { s.emitAll ((decodeDiscards s.cfg.mtu g).map .silent) with rxlen := n, rxidx := 0, rxph := .data })
      hc rfl rfl hpos hlen (by rw [← hlen]; exact hmtu.trans_eq hb.symm)
    rw [hn, rxTurns_discarded hg hc hh, rxTurns_header (s := s.emitAll _) hc hh (hlen ▸ hpos) hmtu,
      rxTurns_data p (fun _ => rfl) (by rw [hlen]; exact (Nat.zero_add _).le) hdata, rxTurns_zero]
    refine ⟨_, rfl, rfl, rfl, rfl, rfl, rfl, nofun, ?_⟩
    rintro _ ⟨⟩
    exact ⟨rfl, rfl, hlen, rfl, List.take_left⟩

/-- Settles O35: behind the discarded bytes stands nothing, a lone start marker, or a frame that is not all there. -/
theorem rxEngineWaitsWhereDecodeNextBlocks : Obligations.RxEngineWaitsWhereDecodeNextBlocks := by
  intro s hc hh hb hf hs
  rw [runSteps_eq_rxTurns hs]
  obtain ⟨g, tail, hbs, hg, hstop, hev⟩ := decodeNext_split s.cfg.mtu s.rxd
  rw [hf] at hstop
  rw [hev, hbs, List.length_append, Nat.add_comm]
  cases hstop with
  | empty =>
    rw [List.length_nil, rxTurns_discarded hg hc hh, rxTurns_zero]
    have hready : s.rxph ≠ .deliver := by rw [hh]; exact nofun
    exact ⟨_, rfl, rfl, rfl, rfl, hready, rfl, rfl, rfl⟩
  | marker =>
    rw [List.length_singleton, rxTurns_discarded hg hc hh, rxTurns_start (k := 0) (s := s.emitAll _) hc hh, rxTurns_zero]
    exact ⟨_, rfl, rfl, rfl, rfl, nofun, rfl, rfl, rfl⟩
  | @short n p hmtu hp =>
    obtain ⟨idx, buf, hdata⟩ := takeAll_short p
      (s := { s.emitAll ((decodeDiscards s.cfg.mtu g).map .silent) with rxlen := n, rxidx := 0, rxph := .data })
      hc rfl ((Nat.zero_add _).trans_lt hp) (hb ▸ hmtu)
    have htaken := rxTurns_data (k := 0) (bs := []) p (fun _ => rfl) ((Nat.zero_add _).trans_le hp.le) hdata
    rw [List.append_nil, Nat.zero_add] at htaken
    rw [List.length_cons, List.length_cons, rxTurns_discarded hg hc hh,
      rxTurns_header (s := s.emitAll _) hc hh (Nat.one_le_of_lt hp) hmtu, htaken, rxTurns_zero]
    exact ⟨_, rfl, rfl, rfl, rfl, nofun, rfl, rfl, rfl⟩

/-- Settles O33: the decoder passes over the garbage, and then reads an encoded frame. -/
theorem resynchronisationAfterGarbage : Obligations.ResynchronisationAfterGarbage := by
  intro c g t hc hg
  have hskip : ∀ tail, decodeNext c.mtu (g ++ tail) = decodeNext c.mtu tail :=
    fun _ => (discarded_of_no_marker hg).decodeNext_append
  exact ⟨(hskip _).trans decodeNext_sent, fun p hp => (hskip _).trans (decodeNext_frameOf hc hp), decodeNext_sent,
    fun p hp => decodeNext_frameOf hc hp, rfl, decodeNext_sent⟩

/-- Settles O13: each step takes the byte RXD offers and fires as its effect does, or is held by its guard. -/
theorem rxByteStepEffects : Obligations.RxByteStepEffects := by
  intro s hc
  refine ⟨fun b rest hr hh hb => ?junk, fun hn => ?junkHeld, fun b rest hr hh hb => ?start, fun hn => ?startHeld,
    fun b rest hr hl hb => ?sentinel, fun hn => ?sentinelHeld, fun b rest hr hl hpos hmtu => ?lenData,
    fun hn => ?lenDataHeld, fun b rest hr hl hover => ?lenOver, fun hn => ?lenOverHeld,
    fun b rest hr hd hi => ?dataByte, fun hn => ?dataByteHeld⟩
  case junk => exact (fromLine_takes hr ⟨hh, hb⟩).trans (guarded_fires hc ⟨hh, hb⟩)
  case junkHeld => exact fromLine_held hc hn
  case start => exact (fromLine_takes hr ⟨hh, hb⟩).trans (guarded_fires hc ⟨hh, hb⟩)
  case startHeld => exact fromLine_held hc hn
  case sentinel => exact (fromLine_takes hr ⟨hl, hb⟩).trans (guarded_fires hc ⟨hl, hb⟩)
  case sentinelHeld => exact fromLine_held hc hn
  case lenData => exact (fromLine_takes hr ⟨hl, hpos, hmtu⟩).trans (guarded_fires hc ⟨hl, hpos, hmtu⟩)
  case lenDataHeld => exact fromLine_held hc hn
  case lenOver => exact (fromLine_takes hr ⟨hl, hover⟩).trans (guarded_fires hc ⟨hl, hover⟩)
  case lenOverHeld => exact fromLine_held hc hn
  case dataByte => exact (fromLine_takes hr hd).trans (takeData_fires hc hd hi)
  case dataByteHeld =>
    refine fromLine_held hc fun b rest hr hd => ?_
    obtain hn | hnil := hn
    · exact hn hd
    · cases hnil.symm.trans hr

/-- Settles O19: each of the three is one guarded transition with a true guard, and adds to the trace alone. -/
theorem codecOperationResults : Obligations.CodecOperationResults := by
  intro s hc
  refine ⟨fun p hp => ?encodeData, guarded_fires hc trivial, fun bs => guarded_fires hc trivial⟩
  case encodeData => exact (guarded_fires hc trivial).trans (if_pos hp)

end Sys2Proof.Proofs

/-! PROOFS. The family of spec/41_flow_control.md: the grants a transport owes and pays (R161, R168), the phase graph of the
TX engine (R163) and what holds along it (R263, R281, R167), and the effect of each step (R141 to R161). First the account of
grants, transition by transition; then the phases under a transition; then when each step fires and when it is held. -/

namespace Sys2Proof.Machine

open Sys2Proof

/-! ### Grants -/

section Grants

variable {i : Instr} {s t : State}

theorem grantBegun_le_one : grantBegun s t ≤ 1 := by
  unfold grantBegun; split <;> omega

/-- A grant begins only where the phase changes to TX_IDLE_EMIT or TX_GRANT_EMIT. -/
theorem grantBegun_eq_zero (h : t.txph = s.txph ∨ (t.txph ≠ .idleEmit ∧ t.txph ≠ .grantEmit)) : grantBegun s t = 0 := by
  refine if_neg ?_
  rintro (⟨hs, ht⟩ | ⟨hs, ht⟩) <;> obtain he | ⟨hi, hg⟩ := h
  · cases ht.symm.trans (he.trans hs)
  · exact hi ht
  · cases ht.symm.trans (he.trans hs)
  · exact hg ht

/-- The account of a transition that begins no grant. -/
theorem grant_account_of_not_begun {n : Nat} (hp : t.txph = s.txph ∨ (t.txph ≠ .idleEmit ∧ t.txph ≠ .grantEmit))
    (hn : t.sig.owe.toNat ≤ s.sig.owe.toNat + n) : grantBegun s t + t.sig.owe.toNat ≤ s.sig.owe.toNat + n := by
  rw [grantBegun_eq_zero hp, Nat.zero_add]
  exact hn

/-- The account of a transition that pays the pending obligation. -/
theorem grant_account_of_paid {n : Nat} (hs : s.sig.owe = true) (ht : t.sig.owe = false) :
    grantBegun s t + t.sig.owe.toNat ≤ s.sig.owe.toNat + n := by
  rw [hs, ht, Bool.toNat_true, Bool.toNat_false]
  exact grantBegun_le_one.trans (Nat.le_add_right 1 n)

/-- R168 for one transition: an obligation comes from a data frame accepted into `TIQ` (R161), and a grant pays it
(R152, R155, R156). -/
theorem Fires.grant_account (h : Fires i s t) (hr : ∀ x, i ≠ .sigRaise x) :
    grantBegun s t + t.sig.owe.toNat ≤ s.sig.owe.toNat + (deliveredBy i s).length := by
  cases h with
  | sigRaise => exact absurd rfl (hr _)
  | dataFrame hh hp _ hroom =>
    rw [deliveredBy_dataFrame ⟨hh, hp, hroom⟩]
    exact grant_account_of_not_begun (.inl rfl) (Nat.le_add_left 1 _)
  | rxDeliver hh hroom =>
    rw [deliveredBy_rxDeliver ⟨hh, hroom⟩]
    exact grant_account_of_not_begun (.inl rfl) (Nat.le_add_left 1 _)
  | txIdleWakeGrant _ ho | txHoldWakeGrant _ ho | txHoldWakeBoth _ ho => exact grant_account_of_paid ho rfl
  | txIdleWakeOutbound | txHoldWakeSend =>
    exact grant_account_of_not_begun (.inr ⟨nofun, nofun⟩) (Nat.zero_le _)
  | sigWait =>
    refine grant_account_of_not_begun (.inl rfl) (le_trans ?_ (Nat.le_add_right _ _))
    rw [Sig.clear_reported]
    exact Bool.toNat_le_toNat (Bool.and_le_left _ _)
  | txDelayExpire | txSyncEmitDone | txSyncPollHit | txSyncPollMiss | txCheckEmpty | txCheckDeq | txIdleEmitDone
  | txGrantEmitDoneBack | txGrantEmitDoneGo | txDataEmitDone =>
    exact grant_account_of_not_begun (.inr ⟨nofun, nofun⟩) (Nat.le_add_right _ _)
  | _ => exact grant_account_of_not_begun (.inl rfl) (Nat.le_add_right _ _)

theorem exec_grant_account (h : exec i s = .next t) (hr : ∀ x, i ≠ .sigRaise x) :
    grantBegun s t + t.sig.owe.toNat ≤ s.sig.owe.toNat + (deliveredBy i s).length := by
  obtain ⟨-, rfl | hf⟩ := exec_next h
  · exact grant_account_of_not_begun (.inl rfl) (Nat.le_add_right _ _)
  · exact hf.grant_account hr

end Grants

end Sys2Proof.Machine

namespace Sys2Proof.Proofs

open Sys2Proof Sys2Proof.Machine

/-- Settles O45: the account of one transition, summed along the run; at reset nothing is owed. -/
theorem oneGrantPerAcceptedFrame : Obligations.OneGrantPerAcceptedFrame := by
  intro is s t hok h
  have hsum : sumAlong (fun _ => grantBegun) is s + t.sig.owe.toNat ≤
      s.sig.owe.toNat + sumAlong (fun i s _ => (deliveredBy i s).length) is s :=
    sumAlong_account (ok := fun i => ∀ x, i ≠ .sigRaise x) (spent := fun _ => grantBegun)
      (earned := fun i s _ => (deliveredBy i s).length) (stock := fun s => s.sig.owe.toNat)
      (fun _ _ _ hr hx => exec_grant_account hx hr) is s t hok h
  refine ⟨hsum, fun c len idx buf line moves n hs => ?_⟩
  have hnone : s.sig.owe.toNat = 0 := by rw [hs]; rfl
  omega

end Sys2Proof.Proofs

namespace Sys2Proof.Machine

open Sys2Proof

/-! ### The TX phase under a transition -/

section Phases

variable {i : Instr} {s t : State} {p : Packet}

/-- R163: every transition keeps the phase or takes one edge of the table. -/
theorem Fires.txEdge_or_same (h : Fires i s t) : t.txph = s.txph ∨ txEdge s i s.txph t.txph := by
  cases h with
  | txDelayExpire hp hz => right; rw [hp]; exact ⟨rfl, hz⟩
  | txSyncEmitDone hp ho | txIdleEmitDone hp ho | txDataEmitDone hp ho => right; rw [hp]; exact ⟨rfl, ho⟩
  | txSyncPollHit hp hz hg | txSyncPollMiss hp hz hg => right; rw [hp]; exact ⟨rfl, hz, hg⟩
  | txCheckEmpty hp hq => right; rw [hp]; exact ⟨rfl, hq⟩
  | txCheckDeq hp hq => right; rw [hp]; exact ⟨rfl, by rw [hq]; exact List.cons_ne_nil _ _⟩
  | txIdleWakeGrant hp ho => right; rw [hp]; exact ⟨rfl, ho⟩
  | txIdleWakeOutbound hp ho hh => right; rw [hp]; exact ⟨rfl, ho, hh⟩
  | txHoldWakeGrant hp ho hg => right; rw [hp]; exact .inl ⟨rfl, ho, hg⟩
  | txHoldWakeBoth hp ho hg => right; rw [hp]; exact .inr ⟨rfl, ho, hg⟩
  | txHoldWakeSend _ hp ho hg => right; rw [hp]; exact ⟨rfl, ho, hg⟩
  | txGrantEmitDoneBack hp ho hg | txGrantEmitDoneGo _ hp ho hg => right; rw [hp]; exact ⟨rfl, ho, hg⟩
  | _ => exact .inl rfl

/-- The startup phases are left by R148 alone, and no transition comes back to them. -/
theorem Fires.inStartup_next (h : Fires i s t) : inStartup t.txph = inStartup s.txph ∨
    (i = .txSyncPollHit ∧ s.txph = .syncWait ∧ s.txtimer = 0 ∧ s.sig.pgs = true ∧ t = { s with txph := .check }) := by
  cases h with
  | txSyncPollHit hp hz hg => exact .inr ⟨rfl, hp, hz, hg, rfl⟩
  | txDelayExpire hp | txSyncEmitDone hp | txSyncPollMiss hp | txCheckEmpty hp | txCheckDeq hp
  | txIdleWakeGrant hp | txIdleWakeOutbound hp | txIdleEmitDone hp | txHoldWakeGrant hp | txHoldWakeBoth hp
  | txHoldWakeSend _ hp | txGrantEmitDoneBack hp | txGrantEmitDoneGo _ hp | txDataEmitDone hp => left; rw [hp]; rfl
  | _ => exact .inl rfl

/-! ### The turn that a phase leaves room for -/

/-- With a byte left to write, the turn of an emit phase writes it. -/
theorem txTurn_of_txout (hp : emitPhase s.txph = true) (hne : s.txout ≠ []) : txTurn s = .txEmitByte := by
  cases hph : s.txph with
  | syncEmit | idleEmit | grantEmit | dataEmit => simp [txTurn, hph, hne]
  | delay | syncWait | check | idleWait | holdWait => rw [hph] at hp; cases hp

/-- An own rule of the TX engine fires only as the turn of its phase. -/
theorem Fires.eq_txTurn (h : Fires i s t) (hi : txOwn i = true) (ho : OutMatchesPhase s) : i = txTurn s := by
  cases h with
  | txEmitByte hb =>
    have hne : s.txout ≠ [] := by rw [hb]; exact List.cons_ne_nil _ _
    exact (txTurn_of_txout (ho.1 hne) hne).symm
  | txDelayExpire hp => simp [txTurn, hp]
  | txSyncEmitDone hp hx | txIdleEmitDone hp hx | txDataEmitDone hp hx => simp [txTurn, hp, hx]
  | txSyncPollHit hp _ hx | txSyncPollMiss hp _ hx => simp [txTurn, hp, hx]
  | txCheckEmpty hp hx | txCheckDeq hp hx => simp [txTurn, hp, hx]
  | txIdleWakeGrant hp hx | txIdleWakeOutbound hp hx => simp [txTurn, hp, hx]
  | txHoldWakeGrant hp hx hy | txHoldWakeBoth hp hx hy | txHoldWakeSend _ hp hx hy
  | txGrantEmitDoneBack hp hx hy | txGrantEmitDoneGo _ hp hx hy => simp [txTurn, hp, hx, hy]
  | _ => cases hi

/-- With valid parameters a guarded transition answers a next state: it fires or is held. -/
theorem exists_guarded_next {u : State} {g : Prop} [Decidable g] (hc : s.cfg.Valid) :
    ∃ t, guarded s g (.next u) = .next t := by
  by_cases hg : g
  · exact ⟨u, guarded_fires hc hg⟩
  · exact ⟨s, guarded_held hc hg⟩

/-- With valid parameters none of the TX engine's own rules stops the machine. -/
theorem exists_exec_txOwn_next (hc : s.cfg.Valid) (hi : txOwn i = true) : ∃ t, exec i s = .next t := by
  cases i with
  | txEmitByte | txCheckDeq | txHoldWakeSend | txGrantEmitDoneBack | txGrantEmitDoneGo =>
    simp only [exec, execTxEmitByte, execTxCheckDeq, execTxHoldWakeSend, execTxGrantEmitDoneBack,
      execTxGrantEmitDoneGo]
    split <;> exact exists_guarded_next hc
  | txDelayExpire | txSyncEmitDone | txSyncPollHit | txSyncPollMiss | txCheckEmpty | txIdleWakeGrant
  | txIdleWakeOutbound | txIdleEmitDone | txHoldWakeGrant | txHoldWakeBoth | txDataEmitDone =>
    exact exists_guarded_next hc
  | _ => cases hi

/-! ### The wait for an outbound packet, and the wait for a credit -/

/-- Raising a bit clears none (R141). -/
theorem Sig.hob_raise {g : Sig} (h : g.hob = true) (x : SigBit) : (g.raise x).hob = true := by
  cases x with
  | hob => rfl
  | pgs | owe => exact h

/-- R281: a packet enters `TEQ` with `sig.HOB` raised (R180), the sleep begins with `TEQ` empty (R150), and whoever clears
the bit ends the sleep (R152, R153). -/
theorem Fires.keeps_wakeUp (h : Fires i s t) (hw : ∀ m, i ≠ .sigWait m)
    (hs : s.txph = .idleWait → s.teq ≠ [] → s.sig.hob = true) (hp : t.txph = .idleWait) (hq : t.teq ≠ []) :
    t.sig.hob = true := by
  cases h with
  | sigWait => exact absurd rfl (hw _)
  | transportSend | bdSend => rfl
  | txCheckEmpty _ hnil => exact absurd hnil hq
  | sigRaise => exact Sig.hob_raise (hs hp hq) _
  | txDelayExpire | txSyncEmitDone | txSyncPollHit | txSyncPollMiss | txCheckDeq | txIdleWakeGrant | txIdleWakeOutbound
  | txIdleEmitDone | txHoldWakeGrant | txHoldWakeBoth | txHoldWakeSend | txGrantEmitDoneBack | txGrantEmitDoneGo
  | txDataEmitDone => cases hp
  | _ => exact hs hp hq

/-- In TX_HOLD_WAIT holding `p`, nothing to write, neither a credit nor an obligation to wake it (R167). -/
structure Stalled (p : Packet) (s : State) : Prop where
  wait : s.txph = .holdWait
  holds : s.txhold = some p
  silent : s.txout = []
  noCredit : s.sig.pgs = false
  noGrant : s.sig.owe = false

/-- Elements of the TX engine that stay, and a wait that is not woken, keep the stall. -/
theorem Stalled.congr (hs : Stalled p s) (hph : t.txph = s.txph) (hhold : t.txhold = s.txhold)
    (hout : t.txout = s.txout) (hpgs : t.sig.pgs = s.sig.pgs) (howe : t.sig.owe = s.sig.owe) : Stalled p t :=
  ⟨hph.trans hs.wait, hhold.trans hs.holds, hout.trans hs.silent, hpgs.trans hs.noCredit, howe.trans hs.noGrant⟩

/-- A wait raises no bit (R142). -/
theorem Sig.get_clear_of_false {g : Sig} {x : SigBit} (h : g.get x = false) (w : SigSet) : (g.clear w).get x = false := by
  cases x <;> exact Bool.and_eq_false_imp.2 fun hg => absurd (h.symm.trans hg) nofun

/-- A stalled engine stays stalled, and the line silent, through every transition that brings neither a credit nor an
obligation. -/
theorem Fires.keeps_stalled (h : Fires i s t) (hs : Stalled p s) (hheard : heardBy i s = 0)
    (hdel : deliveredBy i s = []) (hr : ∀ x, i ≠ .sigRaise x) : Stalled p t ∧ txdBytes t.out = txdBytes s.out := by
  cases h with
  | sigRaise => exact absurd rfl (hr _)
  | sentinel hp | len0 hp => rw [heardBy, if_pos hp] at hheard; cases hheard
  | rxLenSentinel hb hp => rw [heardBy, if_pos ⟨hp, by rw [hb]; rfl⟩] at hheard; cases hheard
  | dataFrame hh hp _ hroom => cases (deliveredBy_dataFrame ⟨hh, hp, hroom⟩).symm.trans hdel
  | rxDeliver hh hroom => cases (deliveredBy_rxDeliver ⟨hh, hroom⟩).symm.trans hdel
  | @sigWait _ m =>
    have hpgs := Sig.get_clear_of_false (x := .pgs) hs.noCredit (s.sig.reported m)
    have howe := Sig.get_clear_of_false (x := .owe) hs.noGrant (s.sig.reported m)
    exact ⟨hs.congr rfl rfl rfl (hpgs.trans hs.noCredit.symm) (howe.trans hs.noGrant.symm), by simp⟩
  | txEmitByte hb => cases hs.silent.symm.trans hb
  | txHoldWakeGrant _ ho | txHoldWakeBoth _ ho => cases hs.noGrant.symm.trans ho
  | txHoldWakeSend _ _ _ hg => cases hs.noCredit.symm.trans hg
  | txDelayExpire hp | txSyncEmitDone hp | txSyncPollHit hp | txSyncPollMiss hp | txCheckEmpty hp | txCheckDeq hp
  | txIdleWakeGrant hp | txIdleWakeOutbound hp | txIdleEmitDone hp | txGrantEmitDoneBack hp
  | txGrantEmitDoneGo _ hp | txDataEmitDone hp => cases hs.wait.symm.trans hp
  | _ => exact ⟨hs.congr rfl rfl rfl rfl rfl, by simp⟩

end Phases

/-! ### The first sentinel along a run -/

/-- The straps stay along a run (R48). -/
theorem execAll_cfg {is : List Instr} : ∀ {s t : State}, execAll is s = .next t → t.cfg = s.cfg := by
  induction is with
  | nil => intro s t h; cases h; rfl
  | cons i is ih =>
    intro s t h
    obtain ⟨u, hx, h⟩ := andThen_next h
    exact (ih h).trans (exec_cfg_coupling hx).1

/-- R263 along a run: its ticks are added to those counted before. -/
theorem FirstSentinel.along_run {is : List Instr} : ∀ {k : Nat} {s t : State}, FirstSentinel k s →
    execAll is s = .next t → FirstSentinel (k + is.count .txTick) t := by
  induction is with
  | nil => intro k s t hs h; cases h; exact hs
  | cons i is ih =>
    intro k s t hs h
    obtain ⟨u, hx, h⟩ := andThen_next h
    have hu := Proofs.firstSentinelIsKept.2 k s u i hs hx
    have hcount : (if i = .txTick then k + 1 else k) + is.count .txTick = k + (i :: is).count .txTick := by
      by_cases hi : i = .txTick
      · rw [if_pos hi, hi, List.count_cons_self]; omega
      · rw [if_neg hi, List.count_cons_of_ne hi]
    exact hcount ▸ ih hu h

/-- With fewer than `T_INIT` ticks counted the engine is in TX_DELAY, where nothing has been written. -/
theorem FirstSentinel.silent_before {k : Nat} {s : State} (h : FirstSentinel k s) (hk : k < s.cfg.tInit) :
    txdBytes s.out = [] := by
  by_cases hd : s.txph = .delay
  · obtain ⟨hnone, -, -⟩ := (firstSentinel_delay hd).1 h
    exact hnone
  · have hle : s.cfg.tInit ≤ k := by
      by_cases he : s.txph = .syncEmit
      · obtain ⟨hle, -⟩ := (firstSentinel_syncEmit he).1 h
        exact hle
      · obtain ⟨hle, -⟩ := (firstSentinel_later rfl hd he).1 h
        exact hle
    omega

/-- A byte string that begins the sentinel, or that the sentinel begins. -/
theorem cases_of_prefix_sent {bs : List Byte} (h : bs <+: sent ∨ sent <+: bs) :
    bs = [] ∨ bs = [0xFF#8] ∨ ∃ rest, bs = 0xFF#8 :: 0x00#8 :: rest := by
  obtain h | ⟨rest, rfl⟩ := h
  · obtain rfl | rfl | rfl : bs = [] ∨ bs = [0xFF#8] ∨ bs = [0xFF#8, 0x00#8] := by
      simpa [sent, startMarker] using (List.mem_inits _ _).2 h
    exacts [.inl rfl, .inr (.inl rfl), .inr (.inr ⟨[], rfl⟩)]
  · exact .inr (.inr ⟨rest, rfl⟩)

/-- What is written is a beginning of the sentinel, or goes on behind it. -/
theorem FirstSentinel.written {k : Nat} {s : State} (h : FirstSentinel k s) :
    txdBytes s.out <+: sent ∨ sent <+: txdBytes s.out := by
  by_cases hd : s.txph = .delay
  · obtain ⟨hnone, -, -⟩ := (firstSentinel_delay hd).1 h
    exact .inl (hnone ▸ List.nil_prefix)
  · by_cases he : s.txph = .syncEmit
    · obtain ⟨-, hs⟩ := (firstSentinel_syncEmit he).1 h
      exact hs.imp (fun hw => ⟨s.txout, hw⟩) id
    · obtain ⟨-, hs⟩ := (firstSentinel_later rfl hd he).1 h
      exact .inr hs

end Sys2Proof.Machine

namespace Sys2Proof.Proofs

open Sys2Proof Sys2Proof.Machine

/-- Settles O41: R163's edges, transition by transition; a rule that changes the state has fired, and so it is its phase's. -/
theorem txPhaseGraph : Obligations.TxPhaseGraph := by
  refine ⟨fun c len idx buf line moves n => rfl, fun s t i h => ?edge, fun s i hc ho hi hne => ?turn⟩
  case edge =>
    obtain ⟨-, rfl | hf⟩ := exec_next h
    · exact .inl rfl
    · exact hf.txEdge_or_same
  case turn =>
    obtain ⟨t, h⟩ := exists_exec_txOwn_next hc hi
    obtain ⟨-, rfl | hf⟩ := exec_next h
    · exact absurd h hne
    · exact hf.eq_txTurn hi ho

/-- Settles O42. -/
theorem startupEndsOnlyByPollHit : Obligations.StartupEndsOnlyByPollHit := by
  intro s t i h
  obtain ⟨-, rfl | hf⟩ := exec_next h
  · exact ⟨fun hin hout => absurd (hin.symm.trans hout) nofun, id⟩
  · obtain hsame | ⟨hi, hp, hz, hg, ht⟩ := hf.inStartup_next
    · exact ⟨fun hin hout => absurd (hin.symm.trans (hsame.symm.trans hout)) nofun, hsame.trans⟩
    · exact ⟨fun _ _ => ⟨hi, hp, hz, hg, ht⟩, fun _ => by rw [ht]; rfl⟩

/-- Settles O46: the invariant of R263, kept by every transition, holds at the end of the run. -/
theorem sentinelComesFirstAfterReset : Obligations.SentinelComesFirstAfterReset := by
  intro is c len idx buf line moves n t h
  have hreset := firstSentinelIsKept.1 c len idx buf line moves n
  have hfirst : FirstSentinel (is.count .txTick) t := Nat.zero_add (is.count .txTick) ▸ hreset.along_run h
  have hcfg : t.cfg = c := execAll_cfg h
  exact ⟨fun hk => hfirst.silent_before (hcfg ▸ hk), cases_of_prefix_sent hfirst.written⟩

/-- Settles O51: reset is awake, and every transition keeps the wake-up of a sleeping engine. -/
theorem noOutboundPacketSleeps : Obligations.NoOutboundPacketSleeps := by
  refine ⟨fun c len idx buf line moves n => nofun, fun s t i hs hw h => ?step⟩
  obtain ⟨-, rfl | hf⟩ := exec_next h
  · exact hs
  · exact hf.keeps_wakeUp hw hs

/-- Settles O52: what could wake the engine is ruled out, transition by transition. -/
theorem lostGrantStallsForEver : Obligations.LostGrantStallsForEver := by
  intro s t i p hwait hhold hnil hpgs howe hheard hdel hr h
  have hs : Stalled p s := ⟨hwait, hhold, hnil, hpgs, howe⟩
  have ht : Stalled p t ∧ txdBytes t.out = txdBytes s.out := by
    obtain ⟨-, rfl | hf⟩ := exec_next h
    · exact ⟨hs, rfl⟩
    · exact hf.keeps_stalled hs hheard hdel hr
  obtain ⟨⟨hwait', hhold', hnil', hpgs', howe'⟩, hbytes⟩ := ht
  exact ⟨hwait', hhold', hnil', hpgs', howe', hbytes⟩

end Sys2Proof.Proofs

namespace Sys2Proof.Machine

open Sys2Proof

/-! ### The signal group under a wait -/

/-- A wait reports something when a bit of its set is 1 (R142). -/
theorem anyBit_reported (g : Sig) (m : SigSet) : anyBit (g.reported m) = true ↔
    (m.pgs = true ∧ g.pgs = true) ∨ (m.owe = true ∧ g.owe = true) ∨ (m.hob = true ∧ g.hob = true) := by
  simp only [anyBit, Sig.reported, Bool.or_eq_true, Bool.and_eq_true, or_assoc, and_comm]

theorem State.waited_idleSet (s : State) :
    s.waited idleSet = { s with sig := { s.sig with owe := false, hob := false } } := by
  rw [State.waited, Sig.clear_reported_idleSet]

theorem State.waited_holdSet (s : State) :
    s.waited holdSet = { s with sig := { s.sig with owe := false, pgs := false } } := by
  rw [State.waited, Sig.clear_reported_holdSet]

/-! Of two bits waited for, the one that is 0 already stays as it is, and the wait clears the other alone. -/

theorem State.waited_idleSet_of_not_owe {s : State} (ho : s.sig.owe = false) :
    s.waited idleSet = { s with sig := { s.sig with hob := false } } := by
  simp [State.waited_idleSet, ho]

theorem State.waited_holdSet_of_not_owe {s : State} (ho : s.sig.owe = false) :
    s.waited holdSet = { s with sig := { s.sig with pgs := false } } := by
  simp [State.waited_holdSet, ho]

theorem State.waited_holdSet_of_not_pgs {s : State} (hg : s.sig.pgs = false) :
    s.waited holdSet = { s with sig := { s.sig with owe := false } } := by
  simp [State.waited_holdSet, hg]

theorem State.deq_of_cons {s : State} {q : QueueId} {p : Packet} {l : List Packet} (h : s.queue q = p :: l) :
    s.deq q = some (p, s.setQueue q l) := by
  unfold State.deq; rw [h]

/-! ### The TX engine's steps, firing and held -/

section TxSteps

variable {s : State} {p : Packet} {l : List Packet}

theorem execTxEmitByte_fires {b : Byte} {rest : List Byte} (hc : s.cfg.Valid) (hb : s.txout = b :: rest) :
    execTxEmitByte s = .next { s with txout := rest, out := s.out ++ [.txd b] } := by
  unfold execTxEmitByte
  rw [hb]
  exact guarded_fires hc trivial

theorem execTxEmitByte_held (hc : s.cfg.Valid) (hnil : s.txout = []) : execTxEmitByte s = .next s := by
  unfold execTxEmitByte
  rw [hnil]
  exact blocked_eq hc

theorem execTxCheckDeq_fires (hc : s.cfg.Valid) (hp : s.txph = .check) (hq : s.teq = p :: l) :
    execTxCheckDeq s = .next { s with teq := l, txhold := some p, txph := .holdWait } := by
  unfold execTxCheckDeq
  rw [State.deq_of_cons (q := .teq) hq]
  exact guarded_fires hc hp

theorem execTxCheckDeq_held (hc : s.cfg.Valid) (hn : s.txph ≠ .check ∨ s.teq = []) : execTxCheckDeq s = .next s := by
  unfold execTxCheckDeq
  split
  · exact blocked_eq hc
  · rename_i p t hq
    obtain ⟨l, hl, -⟩ := State.deq_eq_some hq
    obtain hn | hnil := hn
    · exact guarded_held hc hn
    · cases hnil.symm.trans hl

/-- R152: both bits of the wait set are cleared. -/
theorem execTxIdleWakeGrant_fires (hc : s.cfg.Valid) (hp : s.txph = .idleWait) (ho : s.sig.owe = true) :
    execTxIdleWakeGrant s = .next { s with
      sig := { s.sig with owe := false, hob := false }, txout := sent, txph := .idleEmit } := by
  rw [execTxIdleWakeGrant, guarded_fires hc ⟨hp, ho⟩, State.waited_idleSet]
  rfl

/-- R153. -/
theorem execTxIdleWakeOutbound_fires (hc : s.cfg.Valid) (hp : s.txph = .idleWait) (ho : s.sig.owe = false)
    (hh : s.sig.hob = true) :
    execTxIdleWakeOutbound s = .next { s with sig := { s.sig with hob := false }, txph := .check } := by
  rw [execTxIdleWakeOutbound, guarded_fires hc ⟨hp, ho, hh⟩, State.waited_idleSet_of_not_owe ho]

/-- R155. -/
theorem execTxHoldWakeGrant_fires (hc : s.cfg.Valid) (hp : s.txph = .holdWait) (ho : s.sig.owe = true)
    (hg : s.sig.pgs = false) :
    execTxHoldWakeGrant s = .next { s with
      sig := { s.sig with owe := false }, txout := sent, txgo := false, txph := .grantEmit } := by
  rw [execTxHoldWakeGrant, guarded_fires hc ⟨hp, ho, hg⟩, State.waited_holdSet_of_not_pgs hg]
  rfl

/-- R156: both bits of the wait set are cleared, and `txgo` remembers the credit. -/
theorem execTxHoldWakeBoth_fires (hc : s.cfg.Valid) (hp : s.txph = .holdWait) (ho : s.sig.owe = true)
    (hg : s.sig.pgs = true) :
    execTxHoldWakeBoth s = .next { s with
      sig := { s.sig with owe := false, pgs := false }, txout := sent, txgo := true, txph := .grantEmit } := by
  rw [execTxHoldWakeBoth, guarded_fires hc ⟨hp, ho, hg⟩, State.waited_holdSet]
  rfl

/-- With a packet held, R157 is one guarded transition. -/
theorem execTxHoldWakeSend_of_held (hx : s.txhold = some p) :
    execTxHoldWakeSend s = guarded s (s.txph = .holdWait ∧ s.sig.owe = false ∧ s.sig.pgs = true)
      (.next ((s.waited holdSet).loadData p)) := by
  unfold execTxHoldWakeSend; rw [hx]; rfl

/-- R157. -/
theorem execTxHoldWakeSend_fires (hc : s.cfg.Valid) (hx : s.txhold = some p) (hp : s.txph = .holdWait)
    (ho : s.sig.owe = false) (hg : s.sig.pgs = true) :
    execTxHoldWakeSend s = .next { s with
      sig := { s.sig with pgs := false }, txout := frameOf p, txph := .dataEmit } := by
  rw [execTxHoldWakeSend_of_held hx, guarded_fires hc ⟨hp, ho, hg⟩, State.waited_holdSet_of_not_owe ho]
  rfl

theorem execTxHoldWakeSend_held (hc : s.cfg.Valid)
    (hn : ¬ (s.txph = .holdWait ∧ s.sig.owe = false ∧ s.sig.pgs = true) ∨ s.txhold = none) :
    execTxHoldWakeSend s = .next s := by
  unfold execTxHoldWakeSend
  split
  · exact blocked_eq hc
  · rename_i p hp
    exact guarded_held hc (hn.resolve_right (by rw [hp]; exact Option.some_ne_none p))

theorem execTxGrantEmitDoneBack_fires (hc : s.cfg.Valid) (hp : s.txph = .grantEmit) (hnil : s.txout = [])
    (hg : s.txgo = false) : execTxGrantEmitDoneBack s = .next { s with txph := .holdWait } := by
  unfold execTxGrantEmitDoneBack
  rw [if_neg (Bool.eq_false_iff.1 hg)]
  exact guarded_fires hc ⟨hp, hnil⟩

theorem execTxGrantEmitDoneBack_held (hc : s.cfg.Valid)
    (hn : ¬ (s.txph = .grantEmit ∧ s.txout = [] ∧ s.txgo = false)) : execTxGrantEmitDoneBack s = .next s := by
  unfold execTxGrantEmitDoneBack
  split
  · exact blocked_eq hc
  · rename_i hg
    have hgo : s.txgo = false := Bool.eq_false_iff.2 hg
    exact guarded_held hc fun hp => hn ⟨hp.1, hp.2, hgo⟩

/-- With a packet held, R159 is one guarded transition. -/
theorem execTxGrantEmitDoneGo_of_held (hx : s.txhold = some p) :
    execTxGrantEmitDoneGo s = guarded s (s.txph = .grantEmit ∧ s.txout = [] ∧ s.txgo = true)
      (.next { s.loadData p with txgo := false }) := by
  unfold execTxGrantEmitDoneGo; rw [hx]

theorem execTxGrantEmitDoneGo_fires (hc : s.cfg.Valid) (hx : s.txhold = some p) (hp : s.txph = .grantEmit)
    (hnil : s.txout = []) (hg : s.txgo = true) :
    execTxGrantEmitDoneGo s = .next { s with txout := frameOf p, txgo := false, txph := .dataEmit } :=
  (execTxGrantEmitDoneGo_of_held hx).trans (guarded_fires hc ⟨hp, hnil, hg⟩)

theorem execTxGrantEmitDoneGo_held (hc : s.cfg.Valid)
    (hn : ¬ (s.txph = .grantEmit ∧ s.txout = [] ∧ s.txgo = true) ∨ s.txhold = none) :
    execTxGrantEmitDoneGo s = .next s := by
  unfold execTxGrantEmitDoneGo
  split
  · exact blocked_eq hc
  · rename_i p hp
    exact guarded_held hc (hn.resolve_right (by rw [hp]; exact Option.some_ne_none p))

end TxSteps

end Sys2Proof.Machine

namespace Sys2Proof.Proofs

open Sys2Proof Sys2Proof.Machine

/-- Settles O14. -/
theorem rxDeliverEffect : Obligations.RxDeliverEffect :=
  fun _ hc => ⟨fun hd hr hpos hbuf => deliver_fires hc hd hr hpos hbuf, fun hn => guarded_held hc hn⟩

/-- Settles O23: a wait fires when it has something to report, and clears what it reports. -/
theorem signalPrimitiveEffects : Obligations.SignalPrimitiveEffects := by
  intro s hc
  refine ⟨guarded_fires hc trivial, guarded_fires hc trivial, guarded_fires hc trivial, fun m hm => ?wait,
    fun m hpgs howe hhob => ?waitHeld, guarded_fires hc trivial⟩
  case wait =>
    rw [exec, execSigWait, guarded_fires hc ((anyBit_reported _ _).2 hm), State.waited, Sig.clear_reported]
    rfl
  case waitHeld =>
    refine guarded_held hc fun hg => ?_
    obtain hg | hg | hg := (anyBit_reported _ _).1 hg
    exacts [hpgs hg, howe hg, hhob hg]

/-- Settles O24: the transition is always accepted, and the count inside it is the case distinction of R144. -/
theorem tickEffect : Obligations.TickEffect := by
  intro s hc
  rw [exec, execTxTick, guarded_fires hc trivial]
  exact ⟨fun hg => by rw [if_pos hg], fun hn => by rw [if_neg hn]⟩

/-- Settles O25: the four startup steps are guarded transitions, firing or held. -/
theorem startupStepEffects : Obligations.StartupStepEffects :=
  fun _ hc => ⟨fun hg => guarded_fires hc hg, fun hn => guarded_held hc hn, fun hg => guarded_fires hc hg,
    fun hn => guarded_held hc hn, fun hg => guarded_fires hc hg, fun hn => guarded_held hc hn,
    fun hg => guarded_fires hc hg, fun hn => guarded_held hc hn⟩

/-- Settles O26. -/
theorem emitByteEffect : Obligations.EmitByteEffect :=
  fun _ hc => ⟨fun _ _ hb => execTxEmitByte_fires hc hb, fun hnil => execTxEmitByte_held hc hnil⟩

/-- Settles O27: each step of the loop without a packet, firing and held. -/
theorem checkAndIdleStepEffects : Obligations.CheckAndIdleStepEffects := by
  intro s hc
  refine ⟨fun hg => ?empty, fun hn => ?emptyHeld, fun p l hp hq => ?deq, fun hn => ?deqHeld, fun ⟨hp, ho⟩ => ?grant,
    fun hn => ?grantHeld, fun ⟨hp, ho, hh⟩ => ?outbound, fun hn => ?outboundHeld, fun hg => ?done, fun hn => ?doneHeld⟩
  case empty => exact guarded_fires hc hg
  case emptyHeld => exact guarded_held hc hn
  case deq => exact execTxCheckDeq_fires hc hp hq
  case deqHeld => exact execTxCheckDeq_held hc hn
  case grant => exact execTxIdleWakeGrant_fires hc hp ho
  case grantHeld => exact guarded_held hc hn
  case outbound => exact execTxIdleWakeOutbound_fires hc hp ho hh
  case outboundHeld => exact guarded_held hc hn
  case done => exact guarded_fires hc hg
  case doneHeld => exact guarded_held hc hn

/-- Settles O28: each step of the loop with a packet held, firing and held. -/
theorem holdStepEffects : Obligations.HoldStepEffects := by
  intro s hc
  refine ⟨fun ⟨hp, ho, hg⟩ => ?grant, fun hn => ?grantHeld, fun ⟨hp, ho, hg⟩ => ?both, fun hn => ?bothHeld,
    fun p hx hp ho hg => ?send, fun hn => ?sendHeld, fun ⟨hp, hnil, hg⟩ => ?back, fun hn => ?backHeld,
    fun p hx hp hnil hg => ?go, fun hn => ?goHeld, fun hg => ?done, fun hn => ?doneHeld⟩
  case grant => exact execTxHoldWakeGrant_fires hc hp ho hg
  case grantHeld => exact guarded_held hc hn
  case both => exact execTxHoldWakeBoth_fires hc hp ho hg
  case bothHeld => exact guarded_held hc hn
  case send => exact execTxHoldWakeSend_fires hc hx hp ho hg
  case sendHeld => exact execTxHoldWakeSend_held hc hn
  case back => exact execTxGrantEmitDoneBack_fires hc hp hnil hg
  case backHeld => exact execTxGrantEmitDoneBack_held hc hn
  case go => exact execTxGrantEmitDoneGo_fires hc hx hp hnil hg
  case goHeld => exact execTxGrantEmitDoneGo_held hc hn
  case done => exact guarded_fires hc hg
  case doneHeld => exact guarded_held hc hn

/-- Settles O29: the turn of a waiting phase with `sig.OWE` 1 is R152, R155 or R156, and each loads the sentinel. -/
theorem owedGrantGoesFirst : Obligations.OwedGrantGoesFirst := by
  intro s hc hph ho
  obtain hp | hp := hph
  · have hturn : txTurn s = .txIdleWakeGrant := by simp [txTurn, hp, ho]
    rw [hturn]
    exact ⟨_, execTxIdleWakeGrant_fires hc hp ho, rfl, rfl, rfl, rfl, fun hh => absurd (hp.symm.trans hh) nofun⟩
  · cases hg : s.sig.pgs with
    | false =>
      have hturn : txTurn s = .txHoldWakeGrant := by simp [txTurn, hp, ho, hg]
      rw [hturn]
      exact ⟨_, execTxHoldWakeGrant_fires hc hp ho hg, rfl, rfl, rfl, rfl, fun _ => rfl⟩
    | true =>
      have hturn : txTurn s = .txHoldWakeBoth := by simp [txTurn, hp, ho, hg]
      rw [hturn]
      exact ⟨_, execTxHoldWakeBoth_fires hc hp ho hg, rfl, rfl, rfl, rfl, fun _ => rfl⟩

end Sys2Proof.Proofs

/-! PROOFS. The family of spec/42_serial_transport.md: the operations from outside the engines (R182), the two halves of the
block where they are cut at the bridges (R221), and TRANSPORT_SEND and TRANSPORT_RECEIVE (R180, R181). First what a caller's
operation sees of the state, as a relation that each shared operation carries on; then which part of the block an
instruction belongs to, and that a move of the cut halves attempts one that belongs to a half. -/

namespace Sys2Proof.Machine

open Sys2Proof

/-! ### What a caller's operation sees -/

/-- The two states agree on all that an operation from outside looks at or gives out: the parameters, the trace and the
queues. -/
structure SameOutside (s u : State) : Prop where
  cfg : u.cfg = s.cfg
  out : u.out = s.out
  queue : ∀ q, u.queue q = s.queue q

/-- Where `r` answers a next state, so does `r'`, and no caller sees the two states apart. -/
def AnswersAlike (r r' : Result) : Prop := ∀ t, r = .next t → ∃ v, r' = .next v ∧ SameOutside t v

section Callers

variable {s u : State} {p : Packet} {q : QueueId} {l : List Packet} {r r' : Result}

theorem SameOutside.emit (h : SameOutside s u) (o : Output) : SameOutside (s.emit o) (u.emit o) :=
  ⟨h.cfg, congrArg (· ++ [o]) h.out, by simpa using h.queue⟩

theorem SameOutside.emitAll (h : SameOutside s u) (os : List Output) : SameOutside (s.emitAll os) (u.emitAll os) :=
  ⟨h.cfg, congrArg (· ++ os) h.out, by simpa using h.queue⟩

theorem SameOutside.setQueue (h : SameOutside s u) : SameOutside (s.setQueue q l) (u.setQueue q l) := by
  refine ⟨by simpa using h.cfg, by simpa using h.out, fun q' => ?_⟩
  by_cases hqq : q' = q
  · subst hqq; simp
  · rw [State.queue_setQueue_ne _ _ hqq, State.queue_setQueue_ne _ _ hqq, h.queue q']

theorem SameOutside.enq (h : SameOutside s u) : SameOutside (s.enq q p) (u.enq q p) := by
  unfold State.enq
  rw [h.queue q]
  exact h.setQueue

theorem SameOutside.raise (h : SameOutside s u) (x : SigBit) : SameOutside (s.raise x) (u.raise x) :=
  ⟨h.cfg, h.out, by simpa using h.queue⟩

theorem SameOutside.hasRoom_iff (h : SameOutside s u) : s.hasRoom q ↔ u.hasRoom q := by
  rw [State.hasRoom, State.hasRoom, h.queue q, h.cfg]

theorem answersAlike_next (h : SameOutside s u) : AnswersAlike (.next s) (.next u) :=
  fun _ ht => ⟨u, rfl, Host.Outcome.next.inj ht ▸ h⟩

/-- A transition whose guard a caller cannot tell apart fires in both states or is held in both. -/
theorem answersAlike_guarded {g g' : Prop} [Decidable g] [Decidable g'] (h : SameOutside s u) (hg : g ↔ g')
    (hr : AnswersAlike r r') : AnswersAlike (guarded s g r) (guarded u g' r') := by
  intro t ht
  obtain ⟨hc, ⟨hfire, ht⟩ | ⟨hheld, rfl⟩⟩ := guarded_next ht
  · rw [guarded_fires (h.cfg ▸ hc) (hg.1 hfire)]
    exact hr t ht
  · exact ⟨u, guarded_held (h.cfg ▸ hc) (mt hg.2 hheld), h⟩

theorem answersAlike_ifPacket {e : Refusal} (h : SameOutside s u) (hr : AnswersAlike r r') :
    AnswersAlike (if IsPacket s.cfg p then r else .refused e) (if IsPacket u.cfg p then r' else .refused e) := by
  rw [h.cfg]
  split
  · exact hr
  · intro t ht; cases ht

theorem answersAlike_offered (h : SameOutside s u) (hr : AnswersAlike r r') :
    AnswersAlike (offered s p r) (offered u p r') :=
  answersAlike_guarded h Iff.rfl (answersAlike_ifPacket h hr)

theorem answersAlike_takeFrom {give : Packet → Output} (h : SameOutside s u) :
    AnswersAlike (takeFrom q give s) (takeFrom q give u) := by
  unfold takeFrom State.deq
  rw [h.queue q]
  cases s.queue q with
  | nil => exact answersAlike_guarded h Iff.rfl (answersAlike_next h)
  | cons p l => exact answersAlike_guarded h Iff.rfl (answersAlike_next (h.setQueue.emit _))

/-- R182: what an operation from outside answers depends on the parameters, the queues and the trace alone. -/
theorem answersAlike_exec {i : Instr} (hi : callable i = true) (h : SameOutside s u) :
    AnswersAlike (exec i s) (exec i u) := by
  cases i with
  | encodeData p =>
    exact answersAlike_guarded h Iff.rfl (answersAlike_ifPacket h (answersAlike_next (h.emit _)))
  | encodeSentinel => exact answersAlike_guarded h Iff.rfl (answersAlike_next (h.emit _))
  | decodeNext bs =>
    simp only [exec, execDecodeNext, h.cfg]
    exact answersAlike_guarded h Iff.rfl (answersAlike_next ((h.emitAll _).emit _))
  | transportSend p =>
    exact answersAlike_offered h (answersAlike_guarded h h.hasRoom_iff (answersAlike_next (h.enq.raise .hob)))
  | postInbound p | submitOutbound p =>
    exact answersAlike_offered h (answersAlike_guarded h h.hasRoom_iff (answersAlike_next h.enq))
  | transportReceive | nextOutbound | receiveForTest | receiveForWifiCtrl => exact answersAlike_takeFrom h
  | _ => cases hi

end Callers

/-! ### The parts of the block -/

/-- The halves of the block, and the bridges between them (R221). -/
inductive BlockPart where
  /-- The transport with its codec and its two engines. -/
  | transport
  /-- The router with its dispatcher and its consumers' ports. -/
  | router
  /-- The two bridges. -/
  | bridges

/-- The part of the block an instruction belongs to. -/
def partOf : Instr → BlockPart
  | .routeTest | .routeWifiCtrl | .routeUnrouted _ | .rtFetch | .rtRouteTest | .rtRouteWifi | .rtDrop
  | .postInbound _ | .nextOutbound | .receiveForTest | .receiveForWifiCtrl | .submitOutbound _ => .router
  | .buFetch | .buPost | .bdFetch | .bdSend => .bridges
  | _ => .transport

/-- The whole state of the transport is the same. -/
def SameTransport (s t : State) : Prop :=
  t.tiq = s.tiq ∧ t.teq = s.teq ∧ t.sig = s.sig ∧ t.txph = s.txph ∧ t.txtimer = s.txtimer ∧ t.txhold = s.txhold ∧
    t.txout = s.txout ∧ t.txgo = s.txgo ∧ t.rxph = s.rxph ∧ t.rxlen = s.rxlen ∧ t.rxidx = s.rxidx ∧
    t.rxbuf = s.rxbuf ∧ t.rxd = s.rxd

/-- The whole state of the router is the same. -/
def SameRouter (s t : State) : Prop :=
  t.riq = s.riq ∧ t.roq = s.roq ∧ t.fqTest = s.fqTest ∧ t.fqWifi = s.fqWifi ∧ t.fqX0 = s.fqX0 ∧ t.fqX1 = s.fqX1 ∧
    t.rthold = s.rthold

/-- The bridges' latches are the same. -/
def SameLatches (s t : State) : Prop := t.buhold = s.buhold ∧ t.bdhold = s.bdhold

section Parts

variable {i : Instr} {s t u : State} {m : Move}

theorem SameTransport.refl (s : State) : SameTransport s s := by simp [SameTransport]

theorem SameRouter.refl (s : State) : SameRouter s s := by simp [SameRouter]

theorem SameLatches.refl (s : State) : SameLatches s s := ⟨rfl, rfl⟩

theorem Fires.sameLatches (h : Fires i s t) (hp : partOf i ≠ .bridges) : SameLatches s t := by
  cases h with
  | buFetch | buPost | bdFetch | bdSend => exact absurd rfl hp
  | _ => exact ⟨rfl, rfl⟩

theorem Fires.sameRouter (h : Fires i s t) (hp : partOf i = .transport) : SameRouter s t := by
  cases h with
  | routeTest | routeWifiCtrl | routeUnrouted | rtFetch | rtRouteTest | rtRouteWifi | rtDrop | postInbound | nextOutbound
  | receiveForTest | receiveForWifiCtrl | submitOutbound | buFetch | buPost | bdFetch | bdSend => cases hp
  | _ => exact ⟨rfl, rfl, rfl, rfl, rfl, rfl, rfl⟩

theorem Fires.sameTransport (h : Fires i s t) (hp : partOf i = .router) : SameTransport s t := by
  cases h with
  | routeTest | routeWifiCtrl | routeUnrouted | rtFetch | rtRouteTest | rtRouteWifi | rtDrop | postInbound | nextOutbound
  | receiveForTest | receiveForWifiCtrl | submitOutbound =>
    exact ⟨rfl, rfl, rfl, rfl, rfl, rfl, rfl, rfl, rfl, rfl, rfl, rfl, rfl⟩
  | _ => cases hp

/-- An instruction of the transport, waiting or firing. -/
theorem exec_sameRouter (h : exec i s = .next t) (hp : partOf i = .transport) : SameLatches s t ∧ SameRouter s t := by
  obtain ⟨-, rfl | hf⟩ := exec_next h
  · exact ⟨.refl t, .refl t⟩
  · exact ⟨hf.sameLatches (by rw [hp]; nofun), hf.sameRouter hp⟩

/-- An instruction of the router, waiting or firing. -/
theorem exec_sameTransport (h : exec i s = .next t) (hp : partOf i = .router) : SameLatches s t ∧ SameTransport s t := by
  obtain ⟨-, rfl | hf⟩ := exec_next h
  · exact ⟨.refl t, .refl t⟩
  · exact ⟨hf.sameLatches (by rw [hp]; nofun), hf.sameTransport hp⟩

/-! ### What the moves of the cut halves attempt -/

theorem partOf_txTurn : partOf (txTurn s) = .transport := by
  unfold txTurn
  repeat' split
  all_goals rfl

theorem partOf_rtTurn : partOf (rtTurn s) = .router := by
  unfold rtTurn decodeRoute
  repeat' split
  all_goals rfl

theorem partOf_of_decodeByte {ph : RxPhase} {mtu : Nat} {b : Byte} (h : decodeByte ph mtu b = .ok i) :
    partOf i = .transport := by
  cases ph with
  | hunt => cases h; split <;> rfl
  | len =>
    cases h
    split
    · rfl
    · split <;> rfl
  | data => cases h; rfl
  | deliver => cases h

theorem partOf_of_decodeFrame {ph : RxPhase} {mtu : Nat} {bs rest : List Byte} (h : decodeFrame ph mtu bs = .ok (i, rest)) :
    partOf i = .transport := by
  unfold decodeFrame at h
  cases bs with
  | nil => split_ifs at h
  | cons b tail =>
    cases tail with
    | nil => dsimp only at h; split_ifs at h
    | cons n data =>
      dsimp only at h
      split_ifs at h <;> cases h <;> rfl

/-- Nobody fires a bridge's step by name where the halves are cut apart. -/
theorem partOf_of_fireable_cut (h : fireable .cut i = true) : partOf i ≠ .bridges := by
  cases i with
  | buFetch | buPost | bdFetch | bdSend => cases h
  | _ => nofun

/-- A move of the cut halves attempts an instruction of the transport, or one of the router with the waiting bytes as they
are. -/
theorem Fetches.partOf_cut (h : Fetches s m i u) (hcut : s.coupling = .cut) :
    partOf i = .transport ∨ partOf i = .router ∧ u = s := by
  cases h with
  | tx => exact .inl partOf_txTurn
  | deliver => exact .inl rfl
  | byte _ _ hd => exact .inl (partOf_of_decodeByte hd)
  | rt => exact .inr ⟨partOf_rtTurn, rfl⟩
  | bu hb | bd hb => cases hcut.symm.trans hb
  | frame hd => exact .inl (partOf_of_decodeFrame hd)
  | fire hf =>
    have hn : partOf i ≠ .bridges := partOf_of_fireable_cut (hcut ▸ hf)
    cases hp : partOf i with
    | transport => exact .inl rfl
    | router => exact .inr ⟨rfl, rfl⟩
    | bridges => exact absurd hp hn

end Parts

/-! ### An offered packet, and a packet taken out of a queue -/

section Interfaces

variable {s : State} {q : QueueId} {p : Packet} {l : List Packet}

/-- With valid parameters the offer of a packet is not refused. -/
theorem offered_packet {r : Result} (hc : s.cfg.Valid) (hp : IsPacket s.cfg p) : offered s p r = r :=
  (guarded_fires hc trivial).trans (if_pos hp)

theorem takeFrom_fires {give : Packet → Output} (hc : s.cfg.Valid) (hq : s.queue q = p :: l) :
    takeFrom q give s = .next ((s.setQueue q l).emit (give p)) := by
  unfold takeFrom
  rw [State.deq_of_cons hq]
  exact guarded_fires hc trivial

theorem takeFrom_held {give : Packet → Output} (hc : s.cfg.Valid) (hq : s.queue q = []) : takeFrom q give s = .next s := by
  unfold takeFrom
  rw [State.deq_eq_none.2 hq]
  exact blocked_eq hc

end Interfaces

end Sys2Proof.Machine

namespace Sys2Proof.Proofs

open Sys2Proof Sys2Proof.Machine

/-- Settles O54: the frame is read off the operation that fires; and the state with other engines is one that no caller sees
apart from `s`. -/
theorem operationsNeitherReadNorWriteTheEngines : Obligations.OperationsNeitherReadNorWriteTheEngines := by
  intro s t i hi h
  refine ⟨?writes, fun g a n hold o x r l k b w => ?reads⟩
  case writes =>
    obtain ⟨-, rfl | hf⟩ := exec_next h
    · simp
    · cases hf with
      | encodeData | encodeSentinel | decodeNext | transportSend | transportReceive | postInbound | nextOutbound
      | receiveForTest | receiveForWifiCtrl | submitOutbound => simp
      | _ => cases hi
  case reads =>
    have hsame : SameOutside s { s with
        sig := g, txph := a, txtimer := n, txhold := hold, txout := o, txgo := x
        rxph := r, rxlen := l, rxidx := k, rxbuf := b, rxd := w } := ⟨rfl, rfl, fun q => by cases q <;> rfl⟩
    obtain ⟨v, hv, hvt⟩ := answersAlike_exec hi hsame t h
    exact ⟨v, hv, hvt.out, hvt.queue⟩

/-- Settles O58: a move that attempts an instruction attempts one of a half, and an arriving byte reaches the transport. -/
theorem cutHalvesShareNothing : Obligations.CutHalvesShareNothing := by
  intro s t hcut hnr h
  obtain ⟨-, ⟨-, rfl⟩ | ⟨m, ms, hs, rfl | ⟨b, -, rfl⟩ | ⟨rfl, -⟩ | ⟨i, l, hf, hx⟩⟩⟩ := step_next h
  · exact ⟨rfl, rfl, .inl (SameTransport.refl t)⟩
  · exact ⟨rfl, rfl, .inl (SameTransport.refl s)⟩
  · exact ⟨rfl, rfl, .inr (SameRouter.refl s)⟩
  · exact absurd hs (hnr ms)
  · obtain hp | ⟨hp, hu⟩ := (fetch_some hf).partOf_cut hcut
    · obtain ⟨⟨hbu, hbd⟩, hrouter⟩ := exec_sameRouter hx hp
      exact ⟨hbu, hbd, .inr hrouter⟩
    · rw [hu] at hx
      obtain ⟨⟨hbu, hbd⟩, htransport⟩ := exec_sameTransport hx hp
      exact ⟨hbu, hbd, .inl htransport⟩

/-- Settles O20. -/
theorem transportOperationEffects : Obligations.TransportOperationEffects := by
  intro s hc
  refine ⟨fun p hp hr => ?send, fun p hp hn => ?sendHeld, fun p l hq => ?receive, fun hnil => ?receiveHeld⟩
  case send => exact (offered_packet hc hp).trans (guarded_fires hc hr)
  case sendHeld => exact (offered_packet hc hp).trans (guarded_held hc hn)
  case receive => exact takeFrom_fires (q := .tiq) hc hq
  case receiveHeld => exact takeFrom_held (q := .tiq) hc hnil

end Sys2Proof.Proofs

/-! PROOFS. The family of spec/43_packet_router.md: the dispatcher's steps (R191 to R194), the router's interfaces and its
consumers' ports (R190, R195 to R198), and the fan-out of four packets (R201). First when RT_FETCH fires and when it is held;
then two turns of the dispatcher, a fetch and the held packet's row, as one lemma for each class of function byte. -/

namespace Sys2Proof.Machine

open Sys2Proof

/-! ### RT_FETCH -/

section Fetch

variable {s : State} {p : Packet} {l : List Packet}

theorem execRtFetch_fires (hc : s.cfg.Valid) (hn : s.rthold = none) (hq : s.riq = p :: l) :
    execRtFetch s = .next { s with riq := l, rthold := some p } := by
  unfold execRtFetch
  rw [State.deq_of_cons (q := .riq) hq]
  exact guarded_fires hc hn

theorem execRtFetch_held_empty (hc : s.cfg.Valid) (hq : s.riq = []) : execRtFetch s = .next s := by
  unfold execRtFetch
  rw [State.deq_eq_none.2 (show s.queue .riq = [] from hq)]
  exact blocked_eq hc

end Fetch

/-! ### The dispatcher fed by turns -/

theorem hasRoom_of_queue {s : State} {q : QueueId} {l : List Packet} (hq : s.queue q = l)
    (hl : l.length < capOf s.cfg q) : s.hasRoom q := by
  rw [State.hasRoom, hq]
  exact hl

/-- The state with the packets `ps` on `RIQ`, nothing held and `n` turns of the dispatcher scheduled. -/
def State.queued (s : State) (ps : List Packet) (n : Nat) : State :=
  { s with riq := ps, rthold := none, sched := List.replicate n (.agent .rt) }

/-- `n` turns of the dispatcher on the packets `ps`. -/
def rtTurns (n : Nat) (ps : List Packet) (s : State) : Result := runSteps n (s.queued ps n)

section DispatcherTurns

variable {s t : State} {k : Nat} {p : Packet} {ps : List Packet}

theorem runSteps_eq_rtTurns {n : Nat} (hn : s.rthold = none) (hs : s.sched = List.replicate n (.agent .rt)) :
    runSteps n s = rtTurns n s.riq s := by
  rw [rtTurns, State.queued, ← hs, ← hn]

theorem rtTurns_zero : rtTurns 0 ps s = .next (s.queued ps 0) := rfl

/-- Two turns fetch the packet at the head of `RIQ` and run the row of its function byte (R69, R191). -/
theorem rtTurns_cons (hc : s.cfg.Valid)
    (hx : exec (decodeRoute s.cfg (fnOf p)) { s.queued ps k with rthold := some p } = .next (t.queued ps k)) :
    rtTurns (k + 2) (p :: ps) s = rtTurns k ps t := by
  have hfetch : step (s.queued (p :: ps) (k + 2)) = .next { s.queued ps (k + 1) with rthold := some p } :=
    (step_of_fetch (s := s.queued (p :: ps) (k + 2)) rfl rfl).trans
      (execRtFetch_fires (s := s.queued (p :: ps) (k + 1)) hc rfl rfl)
  have hroute : step { s.queued ps (k + 1) with rthold := some p } = .next (t.queued ps k) :=
    (step_of_fetch (s := { s.queued ps (k + 1) with rthold := some p }) rfl rfl).trans hx
  rw [rtTurns, runSteps, hfetch, andThen, runSteps, hroute]
  rfl

/-- R192: with room on `FQ_TEST` a test packet passes to it. -/
theorem rtTurns_test (hc : s.cfg.Valid) (hf : fnOf p = some s.cfg.fnTest) (hr : s.hasRoom .fqTest) :
    rtTurns (k + 2) (p :: ps) s = rtTurns k ps (s.enq .fqTest p) := by
  refine rtTurns_cons hc ?_
  rw [decodeRoute_test hf]
  exact routeHeld_fires (s := { s.queued ps k with rthold := some p }) hc rfl hf hr

/-- R193: with room on `FQ_WIFI` a wireless-control packet passes to it. -/
theorem rtTurns_wifi (hc : s.cfg.Valid) (hf : fnOf p = some s.cfg.fnWifi) (hr : s.hasRoom .fqWifi) :
    rtTurns (k + 2) (p :: ps) s = rtTurns k ps (s.enq .fqWifi p) := by
  have hcodes : fnOf p ≠ some s.cfg.fnTest := fun hT => fnTest_ne_fnWifi hc (Option.some.inj (hT.symm.trans hf))
  refine rtTurns_cons hc ?_
  rw [decodeRoute_wifi hcodes hf]
  exact routeHeld_fires (s := { s.queued ps k with rthold := some p }) hc rfl hf hr

/-- R194: any other packet is dropped with a record at LOG, whatever the queues hold. -/
theorem rtTurns_unrouted (hc : s.cfg.Valid) (hu : Unrouted s.cfg (fnOf p)) :
    rtTurns (k + 2) (p :: ps) s = rtTurns k ps (s.logDrop p) := by
  refine rtTurns_cons hc ?_
  rw [decodeRoute_unrouted hu]
  exact execRouteUnrouted_fires (s := { s.queued ps k with rthold := some p }) hc rfl hu

end DispatcherTurns

end Sys2Proof.Machine

namespace Sys2Proof.Proofs

open Sys2Proof Sys2Proof.Machine

/-- Settles O50: the eight turns are two for each packet, in the order of `RIQ`; `CAP_FQ` is at least 2, so the second test
packet finds room behind the first. -/
theorem routerFanOut : Obligations.RouterFanOut := by
  intro s t1 w1 t2 u hc hcap hn hT hW hX0 hX1 hq ht1 hw1 ht2 huT huW hs
  have hturns : runSteps 8 s =
      .next (((((s.enq .fqTest t1).enq .fqWifi w1).enq .fqTest t2).logDrop u).queued [] 0) := by
    calc runSteps 8 s
      _ = rtTurns 8 [t1, w1, t2, u] s := by rw [runSteps_eq_rtTurns hn hs, hq]
      _ = rtTurns 6 [w1, t2, u] (s.enq .fqTest t1) := rtTurns_test hc ht1 ?roomFirst
      _ = rtTurns 4 [t2, u] ((s.enq .fqTest t1).enq .fqWifi w1) := rtTurns_wifi hc hw1 ?roomWifi
      _ = rtTurns 2 [u] (((s.enq .fqTest t1).enq .fqWifi w1).enq .fqTest t2) := rtTurns_test hc ht2 ?roomSecond
      _ = rtTurns 0 [] ((((s.enq .fqTest t1).enq .fqWifi w1).enq .fqTest t2).logDrop u) :=
        rtTurns_unrouted hc ⟨huT, huW⟩
      _ = _ := rtTurns_zero
    case roomFirst => exact hasRoom_of_queue hT (Nat.zero_lt_of_lt hcap)
    case roomWifi => exact hasRoom_of_queue hW (Nat.zero_lt_of_lt hcap)
    case roomSecond =>
      have hfirst : s.fqTest ++ [t1] = [t1] := by rw [hT, List.nil_append]
      exact hasRoom_of_queue hfirst hcap
  refine ⟨_, hturns, ?_⟩
  simp [State.queued, State.enq, hT, hW, hX0, hX1]

/-- Settles O17: the held packet's rows are the dispatcher's two operations, and RT_FETCH needs an empty latch and a packet
on `RIQ`. -/
theorem dispatcherStepEffects : Obligations.DispatcherStepEffects := by
  intro s hc
  refine ⟨fun p l hn hq => ?fetch, fun hno => ?fetchHeld, fun p hp hf hr => ?test, fun hn => ?testHeld,
    fun p hp hf hr => ?wifi, fun hn => ?wifiHeld, fun p hp hT hW => ?drop, fun hn => ?dropHeld⟩
  case fetch => exact execRtFetch_fires hc hn hq
  case fetchHeld =>
    obtain hsome | hnil := hno
    · obtain ⟨p, hp⟩ := Option.ne_none_iff_exists'.1 hsome
      exact execRtFetch_held hc hp
    · exact execRtFetch_held_empty hc hnil
  case test => exact routeHeld_fires hc hp hf hr
  case testHeld => exact routeHeld_held hc hn
  case wifi => exact routeHeld_fires hc hp hf hr
  case wifiHeld => exact routeHeld_held hc hn
  case drop => exact dropHeld_fires hc hp ⟨hT, hW⟩
  case dropHeld => exact dropHeld_held hc hn

/-- Settles O21: POST_INBOUND looks at the room in `RIQ` alone, NEXT_OUTBOUND at the head of `ROQ`. -/
theorem routerInterfaceEffects : Obligations.RouterInterfaceEffects := by
  intro s hc
  refine ⟨fun p hp hr => ?post, fun p hp hn => ?postHeld, fun p l hq => ?next, fun hnil => ?nextHeld⟩
  case post => exact (offered_packet hc hp).trans (guarded_fires hc hr)
  case postHeld => exact (offered_packet hc hp).trans (guarded_held hc hn)
  case next => exact takeFrom_fires (q := .roq) hc hq
  case nextHeld => exact takeFrom_held (q := .roq) hc hnil

/-- Settles O22: each receive operation takes from its own queue, and SUBMIT_OUTBOUND looks at the room in `ROQ` alone. -/
theorem consumerPortEffects : Obligations.ConsumerPortEffects := by
  intro s hc
  refine ⟨fun p l hq => ?test, fun hnil => ?testHeld, fun p l hq => ?wifi, fun hnil => ?wifiHeld,
    fun p hp hr => ?submit, fun p hp hn => ?submitHeld⟩
  case test => exact takeFrom_fires (q := .fqTest) hc hq
  case testHeld => exact takeFrom_held (q := .fqTest) hc hnil
  case wifi => exact takeFrom_fires (q := .fqWifi) hc hq
  case wifiHeld => exact takeFrom_held (q := .fqWifi) hc hnil
  case submit => exact (offered_packet hc hp).trans (guarded_fires hc hr)
  case submitHeld => exact (offered_packet hc hp).trans (guarded_held hc hn)

end Sys2Proof.Proofs

/-! PROOFS. The family of spec/44_coupling.md: the bridges' steps (R216 to R219). Both bridges have one shape, a fetch from a
queue into the latch and a post of the latched packet into a queue; when a fetch and a post fire and when they are held is
proved once for the shape. -/

namespace Sys2Proof.Machine

open Sys2Proof

/-! ### The shape of a bridge -/

/-- A fetch from the queue `q` into the empty `latch`; `store` puts the packet there (R216, R218). -/
def latchFetch (q : QueueId) (latch : Option Packet) (store : Packet → State → State) (s : State) : Result :=
  match s.deq q with
  | none => blocked s
  | some (p, t) => guarded s (latch = none) (.next (store p t))

/-- A post of the packet in `latch` into the queue `q`; `pass` appends it and empties the latch (R217, R219). -/
def latchPost (q : QueueId) (latch : Option Packet) (pass : Packet → State → State) (s : State) : Result :=
  match latch with
  | none => blocked s
  | some p => guarded s (s.hasRoom q) (.next (pass p s))

section Bridges

variable {s : State} {q : QueueId} {latch : Option Packet} {f : Packet → State → State} {p : Packet} {l : List Packet}

theorem exec_buFetch : exec .buFetch s = latchFetch .tiq s.buhold (fun p t => { t with buhold := some p }) s := rfl

theorem exec_buPost : exec .buPost s = latchPost .riq s.buhold (fun p t => { t.enq .riq p with buhold := none }) s := rfl

theorem exec_bdFetch : exec .bdFetch s = latchFetch .roq s.bdhold (fun p t => { t with bdhold := some p }) s := rfl

theorem exec_bdSend : exec .bdSend s = latchPost .teq s.bdhold (fun p t => { sendInto p t with bdhold := none }) s := rfl

theorem latchFetch_fires (hc : s.cfg.Valid) (hn : latch = none) (hq : s.queue q = p :: l) :
    latchFetch q latch f s = .next (f p (s.setQueue q l)) := by
  unfold latchFetch
  rw [State.deq_of_cons hq]
  exact guarded_fires hc hn

theorem latchFetch_held (hc : s.cfg.Valid) (hno : latch ≠ none ∨ s.queue q = []) : latchFetch q latch f s = .next s := by
  unfold latchFetch
  split
  · exact blocked_eq hc
  · rename_i p t hq
    obtain ⟨l, hl, -⟩ := State.deq_eq_some hq
    have hfull : latch ≠ none := hno.resolve_right (by rw [hl]; exact List.cons_ne_nil p l)
    exact guarded_held hc hfull

theorem latchPost_fires (hc : s.cfg.Valid) (hp : latch = some p) (hr : s.hasRoom q) :
    latchPost q latch f s = .next (f p s) := by
  unfold latchPost
  rw [hp]
  exact guarded_fires hc hr

theorem latchPost_held (hc : s.cfg.Valid) (hno : latch = none ∨ ¬ s.hasRoom q) : latchPost q latch f s = .next s := by
  unfold latchPost
  split
  · exact blocked_eq hc
  · exact guarded_held hc (hno.resolve_left (Option.some_ne_none _))

end Bridges

end Sys2Proof.Machine

namespace Sys2Proof.Proofs

open Sys2Proof Sys2Proof.Machine

/-- Settles O18: a fetch looks at its latch and the queue it takes from alone, a post at its latch and the room in the queue
it appends to. -/
theorem bridgeStepEffects : Obligations.BridgeStepEffects := by
  intro s hc
  rw [exec_buFetch, exec_buPost, exec_bdFetch, exec_bdSend]
  refine ⟨fun p l hn hq => ?buFetch, fun hno => ?buFetchHeld, fun p hp hr => ?buPost, fun hno => ?buPostHeld,
    fun p l hn hq => ?bdFetch, fun hno => ?bdFetchHeld, fun p hp hr => ?bdSend, fun hno => ?bdSendHeld⟩
  case buFetch => exact latchFetch_fires (q := .tiq) hc hn hq
  case buFetchHeld => exact latchFetch_held (q := .tiq) hc hno
  case buPost => exact latchPost_fires (q := .riq) hc hp hr
  case buPostHeld => exact latchPost_held (q := .riq) hc hno
  case bdFetch => exact latchFetch_fires (q := .roq) hc hn hq
  case bdFetchHeld => exact latchFetch_held (q := .roq) hc hno
  case bdSend => exact latchPost_fires (q := .teq) hc hp hr
  case bdSendHeld => exact latchPost_held (q := .teq) hc hno

end Sys2Proof.Proofs

/-! PROOFS. The family of spec/60_exceptions.md: the refusal of a byte string that is no packet (R231), at the three inputs
and by ENCODE_DATA. -/

namespace Sys2Proof.Machine

open Sys2Proof

section NonPackets

variable {s : State} {p : Packet}

/-- A packet has 1 to `MTU` bytes (R21), so what is none is empty or too long. -/
theorem not_isPacket_iff {c : Config} : ¬ IsPacket c p ↔ p = [] ∨ c.mtu < p.length := by
  rw [IsPacket, not_and_or, not_le, not_le, Nat.lt_one_iff, List.length_eq_zero_iff]

/-- An input looks at the length first: what the offer would have done, room or no room, plays no part (log 16). -/
theorem offered_nonPacket {r : Result} (hc : s.cfg.Valid) (hp : ¬ IsPacket s.cfg p) :
    offered s p r = .refused .refusedInput :=
  (guarded_fires hc trivial).trans (if_neg hp)

theorem execEncodeData_nonPacket (hc : s.cfg.Valid) (hp : ¬ IsPacket s.cfg p) :
    execEncodeData p s = .refused .notAPacket :=
  (guarded_fires hc trivial).trans (if_neg hp)

end NonPackets

end Sys2Proof.Machine

namespace Sys2Proof.Proofs

open Sys2Proof Sys2Proof.Machine

/-- Settles O9: the three inputs are the one offer, whatever would follow it; ENCODE_DATA is no input and refuses by its own
name (log 10). -/
theorem nonPacketsAreRefused : Obligations.NonPacketsAreRefused := by
  intro s p hc hlen
  have hp : ¬ IsPacket s.cfg p := not_isPacket_iff.2 hlen
  refine ⟨?transportSend, ?postInbound, ?submitOutbound, ?encodeData⟩
  case transportSend => exact offered_nonPacket hc hp
  case postInbound => exact offered_nonPacket hc hp
  case submitOutbound => exact offered_nonPacket hc hp
  case encodeData => exact execEncodeData_nonPacket hc hp

end Sys2Proof.Proofs

/-! PROOFS. The family of spec/70_reset_and_hazards.md: a reset applied from outside (R260, R261, R264, R265). An applied
reset is R45's last column with the driver's waiting bytes as its line, so its values are those of R45's table. -/

namespace Sys2Proof.Machine

open Sys2Proof

section AppliedReset

variable {s : State} {ms : List Move}

/-- R45's unspecified elements take the values of log 2; the line, the schedule, the counter and the coupling are those
of `s` (R265, log 18). -/
theorem applyReset_eq_resetTo :
    applyReset s = { State.resetTo s.cfg 0x00#8 0 (List.replicate s.cfg.mtu 0x00#8) s.rxd s.sched s.fresh with
      coupling := s.coupling } := rfl

/-- The reset move fetches nothing and waits for nothing. -/
theorem step_of_reset (hc : s.cfg.Valid) (hs : s.sched = .reset :: ms) :
    step s = .next (applyReset { s with sched := ms }) :=
  (step_of_fetch_none hs rfl).trans (guarded_fires hc trivial)

end AppliedReset

end Sys2Proof.Machine

namespace Sys2Proof.Proofs

open Sys2Proof Sys2Proof.Machine

/-- Settles O2: the step applies the reset, whose elements have the values of R45's table (O1); the straps, the line and
the trace are read off `applyReset`. -/
theorem externalResetRestoresResetState : Obligations.ExternalResetRestoresResetState := by
  intro s ms hc hs
  obtain ⟨tiq, teq, riq, roq, fqTest, fqWifi, fqX0, fqX1, pgs, owe, hob, txph, txtimer, txhold, txout, txgo,
    rxph, rthold, buhold, bdhold, cfg⟩ :=
    resetStateTable s.cfg 0x00#8 0 (List.replicate s.cfg.mtu 0x00#8) s.rxd ms s.fresh
  refine ⟨_, step_of_reset hc hs, ?_⟩
  rw [applyReset_eq_resetTo]
  exact ⟨cfg, tiq, teq, riq, roq, fqTest, fqWifi, fqX0, fqX1, pgs, owe, hob, txph, txtimer, txhold, txout, txgo,
    rxph, rthold, buhold, bdhold, rfl, rfl⟩

end Sys2Proof.Proofs
